-- ==== Sys2Proof/Word.lean ====
section
/-! DEFINITION. The word types of the machine (spec/00_scope.md R7; spec/30_encoding.md R91).
Every value of this machine is unsigned. -/

namespace Sys2Proof

/-- A 4-bit field of an instruction word: `X`, `Y`, `N` or the major opcode (R91). -/
abbrev Nibble := BitVec 4

/-- A byte: a general register, a memory cell, a timer, the field `KK` (R21, R29, R30, R36, R91). -/
abbrev Byte := BitVec 8

/-- The 12-bit address literal `NNN` (R91). -/
abbrev Addr12 := BitVec 12

/-- A 16-bit value: an instruction word, `I`, `pc`, a return address, the keypad flags
(R24, R25, R28, R33, R90). -/
abbrev Word := BitVec 16

/-- The number of a general register, 0 to 15 (R21). -/
abbrev Reg := Fin 16

/-- The number of a key, 0 to 15 (R33). -/
abbrev KeyIndex := Fin 16

/-- The register `v[15]`, written `VF`: the machine's only condition flag (R22). -/
abbrev VF : Reg := 15

/-- The register `v[0]`, the implicit operand of `BNNN` (R23). -/
abbrev V0 : Reg := 0

end Sys2Proof
end

