-- ==== Sys2Proof/Config.lean ====
section
/-! DEFINITION. What this hardware fixes (spec/00_scope.md R5) and the one value the spec leaves to
the environment (spec/40_cycle.md R119). The parameters whose values the spec marks as its own or as
general knowledge (`FETCH_LO`, `FONT_BASE`, `FONT`, the sprite bit order) stand in
Machine/Params.lean. -/

namespace Sys2Proof.Config

/-- `MEM_SIZE`: bytes of main memory (R5). -/
abbrev memSize : Nat := 4096

/-- `PROG_BASE`: the load address of a program and the reset value of `pc` (R5). -/
abbrev progBase : Nat := 0x200

/-- `STACK_DEPTH`: entries of the return stack (R5). -/
abbrev stackDepth : Nat := 16

/-- `DISP_W`: columns of the display (R5). -/
abbrev dispW : Nat := 64

/-- `DISP_H`: rows of the display (R5). -/
abbrev dispH : Nat := 32

/-- The random bytes of the environment: the byte the `n`-th read of one gives when the schedule
supplies none. A free value: it has no body, so nothing can be proved of it (R119, R161: "any value,
chosen by the environment"; log 2). DESIGN CHOICE (the counter as its argument). -/
opaque randomByte : Nat → Byte

end Sys2Proof.Config
end

