-- ==== Sys2Proof/Machine/Params.lean ====
section
/-! DEFINITION. The parameters whose values the source leaves open and the spec fixes
(spec/00_scope.md R5; spec/93_implementation_defined.md U1, U6, U9). They stand here, apart from
Config.lean, because a test could show one of them wrong. -/

namespace Sys2Proof.Machine

/-- `FETCH_LO`: the lowest `pc` from which a fetch is legal. DESIGN CHOICE of the spec
(92_eei_decisions.md D2; log 7). -/
def fetchLo : Nat := 0x000

/-- `FONT_BASE`: the address of glyph 0. DESIGN CHOICE of the spec (D11; log 8). -/
def fontBase : Nat := 0x000

/-- `FONT_LEN`: 16 glyphs of 5 bytes (R5, R63). -/
def fontLen : Nat := 80

/-- `FONT`: the font bytes, glyph by glyph, top row first (spec/20_memory.md R63). PRESUMED: the
source does not give them and the spec marks its table as general knowledge (D15, U6; log 9). -/
def font : List Byte :=
  [0xF0, 0x90, 0x90, 0x90, 0xF0] ++ [0x20, 0x60, 0x20, 0x20, 0x70]
  ++ [0xF0, 0x10, 0xF0, 0x80, 0xF0] ++ [0xF0, 0x10, 0xF0, 0x10, 0xF0]
  ++ [0x90, 0x90, 0xF0, 0x10, 0x10] ++ [0xF0, 0x80, 0xF0, 0x10, 0xF0]
  ++ [0xF0, 0x80, 0xF0, 0x90, 0xF0] ++ [0xF0, 0x10, 0x20, 0x40, 0x40]
  ++ [0xF0, 0x90, 0xF0, 0x90, 0xF0] ++ [0xF0, 0x90, 0xF0, 0x10, 0xF0]
  ++ [0xF0, 0x90, 0xF0, 0x90, 0x90] ++ [0xE0, 0x90, 0xE0, 0x90, 0xE0]
  ++ [0xF0, 0x80, 0x80, 0x80, 0xF0] ++ [0xE0, 0x90, 0x90, 0x90, 0xE0]
  ++ [0xF0, 0x80, 0xF0, 0x80, 0xF0] ++ [0xF0, 0x80, 0xF0, 0x80, 0x80]

/-- What a byte of memory that nothing has written reads as: its reset content, the font in its
range and 0x00 elsewhere (spec/10_state.md R36, R38). -/
def resetByte (a : Nat) : Byte :=
  if fontBase ≤ a ∧ a < fontBase + fontLen then font.getD (a - fontBase) 0 else 0

/-- The address of the glyph of digit `d`: `FONT_BASE + 5 * d` (spec/43_index_memory.md R182). -/
def glyphAddress (d : Fin 16) : Word := BitVec.ofNat 16 (fontBase + 5 * d.val)

/-- The bit of a sprite byte for column `c`, 0 to 7: bit 7 is column 0, the leftmost
(spec/44_display.md R201). PRESUMED by the spec (D14, U1; log 10). -/
def spriteBit (b : Byte) (c : Nat) : Bool := b.getLsbD (7 - c)

end Sys2Proof.Machine
end

