-- ==== Sys2Proof/Machine/State.lean ====
section
/-! DEFINITION. The state of the machine as plain data (spec/10_state.md R20 to R38), the fatal
faults and output events as data (spec/60_exceptions.md R245; spec/00_scope.md R12), the
transitions of the agents (R6), and what stops a step. -/

namespace Sys2Proof.Machine

/-- Main memory: (address, byte) pairs in one canonical form (`Memory.wf`, Machine/Ops.lean). An
address that is not listed holds its reset content (R36, R38). -/
abbrev Memory := List Host.Cell

/-- The display buffer: 32 rows of 64 pixels; `fb[y][x]` is bit `x` of row `y` (R31; log 21). -/
abbrev FrameBuffer := Vector (BitVec 64) 32

/-- The four fatal faults (spec/60_exceptions.md R245). Taking one is a next state
(`State.raise`), not a stop of the model. -/
inductive FatalFault where
  /-- Raised by the fetch (R241). -/
  | pcOutOfBounds
  /-- Raised by `2NNN` when 16 addresses are held (R242). -/
  | stackOverflow
  /-- Raised by `00EE` when no address is held (R243). -/
  | stackUnderflow
  /-- Raised by `DXYN`, `FX33`, `FX55`, `FX65` (R244). -/
  | memOutOfRange
  deriving DecidableEq, Repr

/-- The output events (spec/00_scope.md R12). -/
inductive Event where
  /-- `fault(code, info)` (R11). -/
  | fault (code : BitVec 3) (info : Nat)
  /-- `decode_warning(opcode, addr)` (spec/40_cycle.md R116). -/
  | decodeWarning (op : Word) (addr : Nat)
  /-- `sound_start` (R256). -/
  | soundStart
  /-- `sound_stop` (R256). -/
  | soundStop
  deriving DecidableEq, Repr

/-- The transitions of the five agents (spec/00_scope.md R6). -/
inductive Transition where
  /-- `Cycle(rnd)`, the interpreter's (R110). -/
  | cycle (rnd : Byte)
  /-- `Tick`, the timer clock's (R255). -/
  | tick
  /-- `KeyWrite(k)`, the input adapter's (R257). -/
  | keyWrite (k : BitVec 16)
  /-- `FrameAck`, the renderer's (R258). -/
  | frameAck
  /-- `Load(bytes, offset)`, the loader's (R281). -/
  | load (bytes : List Byte) (offset : Nat)
  /-- `Reset`, the host's (R280). -/
  | reset
  deriving DecidableEq, Repr

/-- What a transition returns to the agent that made it, beside the events. -/
inductive Reply where
  /-- Nothing. -/
  | none
  /-- `FrameAck` returns the display buffer with its dimensions (R258). -/
  | frame (width height : Nat) (pixels : FrameBuffer)
  /-- The `Load` was accepted (R281). -/
  | loadAccepted
  /-- The `Load` was refused with ResourceFault (R247, R281). -/
  | resourceFault
  deriving DecidableEq, Repr

/-- Why a step has no next state. -/
inductive Fault where
  /-- A stuck state. Raised by the transition `Load` of the schedule after the first `Cycle`, to
  which the spec gives "no move rather than a meaning" (spec/70_reset_and_hazards.md R282). No
  instruction raises it. Safe: the model stops where a host would go on (log 5). -/
  | loadAfterFirstCycle
  deriving DecidableEq, Repr

/-- Why an instruction has no meaning. -/
inductive Refusal where
  /-- The instruction is not modelled. Raised by an arm of `exec` that has no meaning; no arm of
  this model raises it. Safe: the model stops. -/
  | notModelled (mnemonic : String)
  deriving DecidableEq, Repr

/-- The whole state. The first thirteen fields are the spec's closed list (R20); the last six are
the model's own: the environment's choices and the outputs of the last transition (log 1, 2, 3,
5). -/
structure State where
  /-- Main memory (R36). -/
  mem : Memory
  /-- `v[0]` to `v[15]` (R21). -/
  v : Vector Byte 16
  /-- The index register (R24). -/
  I : Word
  /-- The program counter (R25). -/
  pc : Word
  /-- The stack depth, 0 to 16 (R27; log 17). -/
  sp : Fin 17
  /-- The return addresses (R28). -/
  stack : Vector Word 16
  /-- The delay timer (R29). -/
  DT : Byte
  /-- The sound timer (R30). -/
  ST : Byte
  /-- The display buffer (R31). -/
  fb : FrameBuffer
  /-- The display buffer may have changed since the last `FrameAck` (R32). -/
  dirty : Bool
  /-- The keypad flags: bit `j` is `key[j]` (R33). -/
  key : BitVec 16
  /-- The terminal machine condition (R34). -/
  halted : Bool
  /-- The code of the fault that set `halted` (R35). -/
  cause : BitVec 3
  /-- The model's own: a `Cycle` has run since `Reset` (R282; log 5). -/
  started : Bool
  /-- The model's own: the transitions the environment takes next, in order; when none is left the
  interpreter moves (R74 (d); log 1). -/
  schedule : List Transition
  /-- The model's own: the input of the current `Cycle(rnd)`, if the schedule gave it (R119;
  log 2). -/
  rnd : Option Byte
  /-- The model's own: how many random bytes have been read (log 2). -/
  draws : Nat
  /-- The model's own: the output list of the last transition (R12; log 3). -/
  events : List Event
  /-- The model's own: what the last transition returned to its agent (log 3). -/
  reply : Reply
  deriving DecidableEq, Repr

/-- The machine right after `Reset`: every field at the value of R38; the model's own fields hold
nothing (log 22). -/
def State.reset : State where
  mem := []
  v := Vector.replicate 16 0
  I := 0
  pc := BitVec.ofNat 16 Config.progBase
  sp := 0
  stack := Vector.replicate 16 0
  DT := 0
  ST := 0
  fb := Vector.replicate 32 0
  dirty := false
  key := 0
  halted := false
  cause := 0
  started := false
  schedule := []
  rnd := none
  draws := 0
  events := []
  reply := .none

/-- What a meaning answers. -/
abbrev Result := Host.Outcome State Fault Refusal

end Sys2Proof.Machine
end

