-- ==== Sys2Proof/Machine/Ops.lean ====
section
/-! DEFINITION. The named operations over memory, registers, the stack, the display, the keypad, the
timers, the outputs, and taking a fault. Every access of an instruction goes through one of them. -/

namespace Sys2Proof.Machine

open Sys2Proof (Byte Word Reg VF KeyIndex)

/-! ### Memory (spec/20_memory.md) -/

/-- The byte at an address: the listed one, else the reset content (R36). -/
def Memory.read : Memory → Nat → Byte
  | [], a => resetByte a
  | (k, c) :: rest, a => if k = a then c else Memory.read rest a

/-- List a byte at its place in the rising order, in place of an earlier one. -/
def Memory.putCell : Memory → Nat → Byte → Memory
  | [], a, b => [(a, b)]
  | (k, c) :: rest, a, b =>
    if a < k then (a, b) :: (k, c) :: rest
    else if a = k then (a, b) :: rest
    else (k, c) :: Memory.putCell rest a b

/-- Take an address off the list. -/
def Memory.dropCell (m : Memory) (a : Nat) : Memory := m.filter (fun cell => cell.1 ≠ a)

/-- `mem[a] <- b`: a byte equal to the reset content is not listed. -/
def Memory.write (m : Memory) (a : Nat) (b : Byte) : Memory :=
  if b = resetByte a then m.dropCell a else m.putCell a b

/-- The bytes `mem[a] .. mem[a + n - 1]`, lowest address first (R64). -/
def Memory.readBytes (m : Memory) (a n : Nat) : List Byte :=
  (List.range n).map (fun k => m.read (a + k))

/-- Write bytes from address `a` upward (R65). -/
def Memory.writeBytes : Memory → Nat → List Byte → Memory
  | m, _, [] => m
  | m, a, b :: bs => Memory.writeBytes (m.write a b) (a + 1) bs

/-- The canonical form: addresses strictly rising, inside memory, no byte equal to the reset
content of its address. -/
abbrev Memory.wf (m : Memory) : Prop :=
  m.Pairwise (fun p q => p.1 < q.1) ∧ ∀ p ∈ m, p.1 < Config.memSize ∧ p.2 ≠ resetByte p.1

/-- `MemRead(a, n)`: the whole range is checked before any byte is used; the error is the fault and
its info (R64). -/
def memRead (s : State) (a n : Nat) : Except (FatalFault × Nat) (List Byte) :=
  if a + n ≤ Config.memSize then .ok (s.mem.readBytes a n)
  else .error (.memOutOfRange, max a Config.memSize)

/-- `MemWrite(a, n, bs)` with `n` the length of `bs`: the whole range is checked before the first
byte is written (R65). -/
def memWrite (s : State) (a : Nat) (bs : List Byte) : Except (FatalFault × Nat) State :=
  if a + bs.length ≤ Config.memSize then .ok { s with mem := s.mem.writeBytes a bs }
  else .error (.memOutOfRange, max a Config.memSize)

/-! ### Registers (spec/10_state.md R21, R24, R25) -/

/-- `v[x]`. -/
def State.reg (s : State) (x : Reg) : Byte := s.v[x.val]

/-- `v[x] <- b`. -/
def State.setReg (s : State) (x : Reg) (b : Byte) : State := { s with v := s.v.set x.val b }

/-- The registers `v[0] .. v[x]`, in order (spec/43_index_memory.md R184). -/
def State.regsUpTo (s : State) (x : Reg) : List Byte := s.v.toList.take (x.val + 1)

/-- `for i: v[i] <- bs[i]`; the registers past the list are left (spec/43_index_memory.md R185). -/
def State.setRegs (s : State) (bs : List Byte) : State :=
  { s with v := Vector.ofFn fun i : Fin 16 => bs.getD i.val (s.reg i) }

/-- `I <- w`. -/
def State.setI (s : State) (w : Word) : State := { s with I := w }

/-- `npc`, the address after the instruction: `pc + 2` (spec/40_cycle.md R114; log 20). -/
def State.npc (s : State) : Word := s.pc + 2

/-- `pc <- target`. -/
def State.goto (s : State) (target : Word) : State := { s with pc := target }

/-! ### The return stack (R27, R28) -/

/-- Push: write `stack[sp]`, then increment; nothing when 16 addresses are held. -/
def State.push (s : State) (w : Word) : Option State :=
  if h : s.sp.val < 16 then
    some { s with stack := s.stack.set s.sp.val w, sp := ⟨s.sp.val + 1, by omega⟩ }
  else none

/-- Pop: the entry `stack[sp - 1]`, and the state with `sp` one less; nothing when no address is
held. The entry is not erased. -/
def State.pop (s : State) : Option (Word × State) :=
  if h : s.sp.val = 0 then none
  else some (s.stack[s.sp.val - 1]'(by have := s.sp.isLt; omega),
    { s with sp := ⟨s.sp.val - 1, by have := s.sp.isLt; omega⟩ })

/-! ### Outputs and taking a fault (spec/00_scope.md R11, R12) -/

/-- `emit E`: append to the transition's output list (R9, R12). -/
def State.emit (s : State) (e : Event) : State := { s with events := s.events ++ [e] }

/-- The cause codes (spec/60_exceptions.md R245). -/
def FatalFault.code : FatalFault → BitVec 3
  | .pcOutOfBounds => 1
  | .stackOverflow => 2
  | .stackUnderflow => 3
  | .memOutOfRange => 4

/-- `raise F(info)`, applied to the state the cycle began with, so that no write of the cycle takes
effect: the halt latch and the cause are set and the event is emitted; `pc` keeps its value (R11;
spec/40_cycle.md R115; spec/60_exceptions.md R248, R249). There is no return from it but `Reset`
(R250; `State.applyReset`). -/
def State.raise (s : State) (f : FatalFault) (info : Nat) : State :=
  { s.emit (.fault f.code info) with halted := true, cause := f.code }

/-- `Reset`: every piece of the spec's state at its reset value, halted and cause included, and no
event (spec/70_reset_and_hazards.md R280). What the environment still has to do and how many random
bytes it gave are not the machine's to reset (log 30). -/
def State.applyReset (s : State) : State :=
  { State.reset with schedule := s.schedule, draws := s.draws }

/-! ### Fetch (spec/40_cycle.md R112) -/

/-- Both bytes of the word lie inside memory and `pc` is not below `FETCH_LO`. -/
def fetchable (pc : Word) : Bool := fetchLo ≤ pc.toNat && pc.toNat + 1 < Config.memSize

/-- `op[15:8] = mem[pc]`, `op[7:0] = mem[pc + 1]` (spec/20_memory.md R66). -/
def State.fetchWord (s : State) : Word := s.mem.read s.pc.toNat ++ s.mem.read (s.pc.toNat + 1)

/-! ### The display buffer (spec/44_display.md R202, R203) -/

/-- `fb[y][x]`, wrapped to row `y mod 32`, column `x mod 64` (R203). -/
def FrameBuffer.pixel (fb : FrameBuffer) (x y : Nat) : Bool :=
  (fb[y % 32]'(Nat.mod_lt y (by decide))).getLsbD (x % 64)

/-- `Toggle(x, y)`: the only way a single pixel changes (R202). -/
def FrameBuffer.toggle (fb : FrameBuffer) (x y : Nat) : FrameBuffer :=
  fb.set (y % 32) (fb[y % 32]'(Nat.mod_lt y (by decide)) ^^^ BitVec.twoPow 64 (x % 64))
    (Nat.mod_lt y (by decide))

/-- The buffer with every pixel clear. -/
def FrameBuffer.clear : FrameBuffer := Vector.replicate 32 0

/-- A new display buffer, marked dirty (R32). -/
def State.setFrame (s : State) (fb : FrameBuffer) : State := { s with fb := fb, dirty := true }

/-! ### The keypad (R33) -/

/-- `key[j] = 1`: key `j` is down. -/
def State.keyDown (s : State) (j : KeyIndex) : Bool := s.key.getLsbD j.val

/-! ### The timers (spec/60_exceptions.md R255, R256) -/

/-- `DT <- b`. -/
def State.setDT (s : State) (b : Byte) : State := { s with DT := b }

/-- The events of a write of `ST`: the edges of the level `ST != 0` (R256). -/
def soundEdge (old new : Byte) : List Event :=
  if old = 0 ∧ new ≠ 0 then [.soundStart]
  else if old ≠ 0 ∧ new = 0 then [.soundStop]
  else []

/-- `ST <- b`, with the event of the edge. -/
def State.setST (s : State) (b : Byte) : State :=
  { s with ST := b, events := s.events ++ soundEdge s.ST b }

/-- `sound_on`, the level output `ST != 0` (R30, R256). -/
def State.soundOn (s : State) : Bool := s.ST != 0

/-! ### The start of a transition -/

/-- The outputs of the last transition are gone, the rest of the schedule and the random input of
this one are in place (log 1, 2, 3). -/
def State.beginTransition (s : State) (rest : List Transition) (rnd : Option Byte) : State :=
  { s with schedule := rest, rnd := rnd, events := [], reply := .none }

/-- The same for a `Cycle`, which is what ends the time for loading (R282; log 5). -/
def State.beginCycle (s : State) (rest : List Transition) (rnd : Option Byte) : State :=
  { s.beginTransition rest rnd with started := true }

end Sys2Proof.Machine
end

