-- ==== Sys2Proof/Machine/Agents.lean ====
section
/-! DEFINITION. The transitions of the agents beside the interpreter (spec/00_scope.md R6), each on a
state in which the transition has begun. All act whether or not the machine is halted. -/

namespace Sys2Proof.Machine

/-- `Tick`: each timer above 0 is decremented; `sound_stop` when `ST` was exactly 1
(spec/60_exceptions.md R255). -/
def tickTimers (s : State) : State :=
  let s1 := if 0 < s.DT.toNat then s.setDT (s.DT - 1) else s
  if 0 < s1.ST.toNat then s1.setST (s1.ST - 1) else s1

/-- `KeyWrite(k)`: all 16 flags at once (R257). -/
def writeKeys (k : BitVec 16) (s : State) : State := { s with key := k }

/-- `FrameAck`: the whole buffer is returned and `dirty` cleared (R258). -/
def ackFrame (s : State) : State :=
  { s with dirty := false, reply := .frame Config.dispW Config.dispH s.fb }

/-- `Load(bytes, offset)` before the first `Cycle`: refused with ResourceFault, no state changed, if
it does not fit; else the bytes are written (spec/70_reset_and_hazards.md R281; R247). After the first
`Cycle` the host has no such move (R282; log 5). -/
def loadBytes (bytes : List Byte) (offset : Nat) (s : State) : Result :=
  if s.started then .fault .loadAfterFirstCycle
  else if offset + bytes.length ≤ Config.memSize then
    .next { s with mem := s.mem.writeBytes offset bytes, reply := .loadAccepted }
  else .next { s with reply := .resourceFault }

end Sys2Proof.Machine
end

