-- ==== Sys2Proof/Syntax.lean ====
section
/-! DEFINITION. The instructions: one constructor per row of spec/opcode_table.json, in the order of
spec/30_encoding.md R95, with the fields of its format (R91, R92). -/

namespace Sys2Proof

/-- The 34 instructions of classic CHIP-8 (spec/30_encoding.md R95). -/
inductive Instr where
  /-- `00E0` CLS: clear the display (R200). -/
  | cls
  /-- `00EE` RET: return from subroutine (R130). -/
  | ret
  /-- `1NNN` JP nnn: jump (R131). -/
  | jpNnn (nnn : Addr12)
  /-- `2NNN` CALL nnn: call subroutine (R132). -/
  | callNnn (nnn : Addr12)
  /-- `3XKK` SE Vx, kk: skip if equal to immediate (R133). -/
  | seVxKk (x : Reg) (kk : Byte)
  /-- `4XKK` SNE Vx, kk: skip if not equal to immediate (R134). -/
  | sneVxKk (x : Reg) (kk : Byte)
  /-- `5XY0` SE Vx, Vy: skip if registers equal (R135). -/
  | seVxVy (x y : Reg)
  /-- `6XKK` LD Vx, kk: load immediate (R150). -/
  | ldVxKk (x : Reg) (kk : Byte)
  /-- `7XKK` ADD Vx, kk: add immediate (R151). -/
  | addVxKk (x : Reg) (kk : Byte)
  /-- `8XY0` LD Vx, Vy: copy (R152). -/
  | ldVxVy (x y : Reg)
  /-- `8XY1` OR Vx, Vy (R153). -/
  | orVxVy (x y : Reg)
  /-- `8XY2` AND Vx, Vy (R154). -/
  | andVxVy (x y : Reg)
  /-- `8XY3` XOR Vx, Vy (R155). -/
  | xorVxVy (x y : Reg)
  /-- `8XY4` ADD Vx, Vy: add with carry out (R156). -/
  | addVxVy (x y : Reg)
  /-- `8XY5` SUB Vx, Vy: subtract, flag = no borrow (R157). -/
  | subVxVy (x y : Reg)
  /-- `8XY6` SHR Vx: shift right by one; `y` is in the word and not read (R158). -/
  | shrVx (x y : Reg)
  /-- `8XY7` SUBN Vx, Vy: reverse subtract, flag = no borrow (R159). -/
  | subnVxVy (x y : Reg)
  /-- `8XYE` SHL Vx: shift left by one; `y` is in the word and not read (R160). -/
  | shlVx (x y : Reg)
  /-- `9XY0` SNE Vx, Vy: skip if registers differ (R136). -/
  | sneVxVy (x y : Reg)
  /-- `ANNN` LD I, nnn: load index (R180). -/
  | ldINnn (nnn : Addr12)
  /-- `BNNN` JP V0, nnn: jump with offset (R137). -/
  | jpV0Nnn (nnn : Addr12)
  /-- `CXKK` RND Vx, kk: masked random byte (R161). -/
  | rndVxKk (x : Reg) (kk : Byte)
  /-- `DXYN` DRW Vx, Vy, n: draw sprite (R201). -/
  | drwVxVyN (x y : Reg) (n : Nibble)
  /-- `EX9E` SKP Vx: skip if key down (R220). -/
  | skpVx (x : Reg)
  /-- `EXA1` SKNP Vx: skip if key up (R221). -/
  | sknpVx (x : Reg)
  /-- `FX07` LD Vx, DT: read the delay timer (R223). -/
  | ldVxDt (x : Reg)
  /-- `FX0A` LD Vx, K: wait for a key (R222). -/
  | ldVxK (x : Reg)
  /-- `FX15` LD DT, Vx: set the delay timer (R224). -/
  | ldDtVx (x : Reg)
  /-- `FX18` LD ST, Vx: set the sound timer (R225). -/
  | ldStVx (x : Reg)
  /-- `FX1E` ADD I, Vx: add register to index (R181). -/
  | addIVx (x : Reg)
  /-- `FX29` LD F, Vx: point index at a font glyph (R182). -/
  | ldFVx (x : Reg)
  /-- `FX33` LD B, Vx: store decimal digits (R183). -/
  | ldBVx (x : Reg)
  /-- `FX55` LD [I], Vx: store registers `v[0]` to `v[X]` (R184). -/
  | ldMemVx (x : Reg)
  /-- `FX65` LD Vx, [I]: load registers `v[0]` to `v[X]` (R185). -/
  | ldVxMem (x : Reg)
  deriving DecidableEq, Repr

end Sys2Proof
end

