-- ==== Sys2Proof/WellFormed.lean ====
section
/-! DEFINITION. Well-formedness of instructions: the operands of an instruction are those of its
format, in order, and each fits the width of its field (spec/30_encoding.md R91, R92, R93).

The check runs on a `Form`, the instruction seen as its format and its operand NUMBERS, with the
widths of the spec's table. The constructors of `Instr` carry exact types, so every `Instr` passes
it (Laws/PerInstr.lean proves so); a `Form` may fail it (Tests/Slice0.lean). -/

namespace Sys2Proof

/-- The fields of an instruction word (R91). -/
inductive Field where
  | X | Y | N | KK | NNN
  deriving DecidableEq, Repr

/-- The width of a field in bits (R91). -/
def Field.width : Field → Nat
  | .X => 4
  | .Y => 4
  | .N => 4
  | .KK => 8
  | .NNN => 12

/-- The six formats (R92). -/
inductive Format where
  | FIXED | NNN | XKK | XY | XYN | X
  deriving DecidableEq, Repr

/-- The fields a format has, most significant first (R92). -/
def Format.fields : Format → List Field
  | .FIXED => []
  | .NNN => [.NNN]
  | .XKK => [.X, .KK]
  | .XY => [.X, .Y]
  | .XYN => [.X, .Y, .N]
  | .X => [.X]

/-- One operand as a number in a field. -/
structure Operand where
  field : Field
  value : Nat
  deriving DecidableEq, Repr

/-- The number fits the field's width: "All 16 values are legal" of a register selector, `KK` is
0..255, `NNN` is 0..0xFFF, `N` is 0..15 (R93). -/
def Operand.fits (o : Operand) : Bool := o.value < 2 ^ o.field.width

/-- An instruction seen as its format and its operand numbers. -/
structure Form where
  format   : Format
  operands : List Operand
  deriving DecidableEq, Repr

/-- The operands are those of the format, in order. -/
def Form.hasFields (f : Form) : Bool := f.operands.map Operand.field == f.format.fields

/-- The two checks together. -/
def Form.wellFormed (f : Form) : Bool := f.hasFields && f.operands.all Operand.fits

/-- A form of format NNN, XKK, XY, XYN, X over its numbers. -/
def Form.ofNNN (nnn : Nat) : Form := ⟨.NNN, [⟨.NNN, nnn⟩]⟩
def Form.ofXKK (x kk : Nat) : Form := ⟨.XKK, [⟨.X, x⟩, ⟨.KK, kk⟩]⟩
def Form.ofXY (x y : Nat) : Form := ⟨.XY, [⟨.X, x⟩, ⟨.Y, y⟩]⟩
def Form.ofXYN (x y n : Nat) : Form := ⟨.XYN, [⟨.X, x⟩, ⟨.Y, y⟩, ⟨.N, n⟩]⟩
def Form.ofX (x : Nat) : Form := ⟨.X, [⟨.X, x⟩]⟩

/-- The format and operands of an instruction (the "used by" column of R92). -/
def Instr.form : Instr → Form
  | .cls => ⟨.FIXED, []⟩
  | .ret => ⟨.FIXED, []⟩
  | .jpNnn nnn => .ofNNN nnn.toNat
  | .callNnn nnn => .ofNNN nnn.toNat
  | .seVxKk x kk => .ofXKK x.val kk.toNat
  | .sneVxKk x kk => .ofXKK x.val kk.toNat
  | .seVxVy x y => .ofXY x.val y.val
  | .ldVxKk x kk => .ofXKK x.val kk.toNat
  | .addVxKk x kk => .ofXKK x.val kk.toNat
  | .ldVxVy x y => .ofXY x.val y.val
  | .orVxVy x y => .ofXY x.val y.val
  | .andVxVy x y => .ofXY x.val y.val
  | .xorVxVy x y => .ofXY x.val y.val
  | .addVxVy x y => .ofXY x.val y.val
  | .subVxVy x y => .ofXY x.val y.val
  | .shrVx x y => .ofXY x.val y.val
  | .subnVxVy x y => .ofXY x.val y.val
  | .shlVx x y => .ofXY x.val y.val
  | .sneVxVy x y => .ofXY x.val y.val
  | .ldINnn nnn => .ofNNN nnn.toNat
  | .jpV0Nnn nnn => .ofNNN nnn.toNat
  | .rndVxKk x kk => .ofXKK x.val kk.toNat
  | .drwVxVyN x y n => .ofXYN x.val y.val n.toNat
  | .skpVx x => .ofX x.val
  | .sknpVx x => .ofX x.val
  | .ldVxDt x => .ofX x.val
  | .ldVxK x => .ofX x.val
  | .ldDtVx x => .ofX x.val
  | .ldStVx x => .ofX x.val
  | .addIVx x => .ofX x.val
  | .ldFVx x => .ofX x.val
  | .ldBVx x => .ofX x.val
  | .ldMemVx x => .ofX x.val
  | .ldVxMem x => .ofX x.val

/-- Well-formedness of an instruction. -/
def Instr.wellFormed (i : Instr) : Bool := i.form.wellFormed

end Sys2Proof
end

