-- ==== Sys2Proof/Decode.lean ====
section
/-! DEFINITION. The decoder, total on any bytes and rejecting by name, and the encoder, both written
from the encoding tables of spec/30_encoding.md R91 to R97. -/

namespace Sys2Proof

/-- Why bytes are no instruction. -/
inductive Reject where
  /-- The word matches none of the 34 patterns (R97). -/
  | unrecognized (op : Word)
  /-- Fewer than the two bytes of a word (R90). -/
  | truncated
  deriving DecidableEq, Repr

/-! ### Fields (R91) -/

/-- `op[15:12]`, the major opcode. -/
def fieldMajor (op : Word) : Nibble := op.extractLsb' 12 4
/-- `X = op[11:8]`, as bits. -/
def nibbleX (op : Word) : Nibble := op.extractLsb' 8 4
/-- `Y = op[7:4]`, as bits. -/
def nibbleY (op : Word) : Nibble := op.extractLsb' 4 4
/-- `N = op[3:0]`. -/
def fieldN (op : Word) : Nibble := op.extractLsb' 0 4
/-- `KK = op[7:0]`. -/
def fieldKK (op : Word) : Byte := op.extractLsb' 0 8
/-- `NNN = op[11:0]`. -/
def fieldNNN (op : Word) : Addr12 := op.extractLsb' 0 12
/-- The register a selector nibble names (R93: "name registers v[X] and v[Y] directly"). -/
def regOfNibble (n : Nibble) : Reg := n.toFin
/-- The selector nibble of a register. -/
def nibbleOfReg (r : Reg) : Nibble := BitVec.ofFin r
/-- The register of field `X`. -/
def fieldX (op : Word) : Reg := regOfNibble (nibbleX op)
/-- The register of field `Y`. -/
def fieldY (op : Word) : Reg := regOfNibble (nibbleY op)

/-! ### Decoding (R94) -/

/-- Family 0 is decided by the whole word (R94, R99). -/
def decodeFamily0 (op : Word) : Except Reject Instr :=
  if op = 0x00E0#16 then .ok .cls
  else if op = 0x00EE#16 then .ok .ret
  else .error (.unrecognized op)

/-- Family 8 is decided by the low nibble (R94). -/
def decodeFamily8 (op : Word) : Except Reject Instr :=
  match (fieldN op).toNat with
  | 0x0 => .ok (.ldVxVy (fieldX op) (fieldY op))
  | 0x1 => .ok (.orVxVy (fieldX op) (fieldY op))
  | 0x2 => .ok (.andVxVy (fieldX op) (fieldY op))
  | 0x3 => .ok (.xorVxVy (fieldX op) (fieldY op))
  | 0x4 => .ok (.addVxVy (fieldX op) (fieldY op))
  | 0x5 => .ok (.subVxVy (fieldX op) (fieldY op))
  | 0x6 => .ok (.shrVx (fieldX op) (fieldY op))
  | 0x7 => .ok (.subnVxVy (fieldX op) (fieldY op))
  | 0xE => .ok (.shlVx (fieldX op) (fieldY op))
  | _ => .error (.unrecognized op)

/-- Family E is decided by the low byte (R94). -/
def decodeFamilyE (op : Word) : Except Reject Instr :=
  match (fieldKK op).toNat with
  | 0x9E => .ok (.skpVx (fieldX op))
  | 0xA1 => .ok (.sknpVx (fieldX op))
  | _ => .error (.unrecognized op)

/-- Family F is decided by the low byte (R94). -/
def decodeFamilyF (op : Word) : Except Reject Instr :=
  match (fieldKK op).toNat with
  | 0x07 => .ok (.ldVxDt (fieldX op))
  | 0x0A => .ok (.ldVxK (fieldX op))
  | 0x15 => .ok (.ldDtVx (fieldX op))
  | 0x18 => .ok (.ldStVx (fieldX op))
  | 0x1E => .ok (.addIVx (fieldX op))
  | 0x29 => .ok (.ldFVx (fieldX op))
  | 0x33 => .ok (.ldBVx (fieldX op))
  | 0x55 => .ok (.ldMemVx (fieldX op))
  | 0x65 => .ok (.ldVxMem (fieldX op))
  | _ => .error (.unrecognized op)

/-- Decode: a function of the 16-bit word alone, by its high nibble (R94, R113). The families 5 and
9 require `op[3:0] = 0` (R96). -/
def decodeWord (op : Word) : Except Reject Instr :=
  match (fieldMajor op).toNat with
  | 0x0 => decodeFamily0 op
  | 0x1 => .ok (.jpNnn (fieldNNN op))
  | 0x2 => .ok (.callNnn (fieldNNN op))
  | 0x3 => .ok (.seVxKk (fieldX op) (fieldKK op))
  | 0x4 => .ok (.sneVxKk (fieldX op) (fieldKK op))
  | 0x5 => if fieldN op = 0#4 then .ok (.seVxVy (fieldX op) (fieldY op)) else .error (.unrecognized op)
  | 0x6 => .ok (.ldVxKk (fieldX op) (fieldKK op))
  | 0x7 => .ok (.addVxKk (fieldX op) (fieldKK op))
  | 0x8 => decodeFamily8 op
  | 0x9 => if fieldN op = 0#4 then .ok (.sneVxVy (fieldX op) (fieldY op)) else .error (.unrecognized op)
  | 0xA => .ok (.ldINnn (fieldNNN op))
  | 0xB => .ok (.jpV0Nnn (fieldNNN op))
  | 0xC => .ok (.rndVxKk (fieldX op) (fieldKK op))
  | 0xD => .ok (.drwVxVyN (fieldX op) (fieldY op) (fieldN op))
  | 0xE => decodeFamilyE op
  | 0xF => decodeFamilyF op
  | _ => .error (.unrecognized op)

/-- The word two bytes in memory form: "big-endian: high byte first" (spec/20_memory.md R66). -/
def wordOfBytes (hi lo : Byte) : Word := hi ++ lo

/-- The two bytes of a word, the first at the lower address (R66, R90). -/
def bytesOfWord (w : Word) : List Byte := [w.extractLsb' 8 8, w.extractLsb' 0 8]

/-- Decoding of a byte string: its first word. -/
def decode : List Byte → Except Reject Instr
  | hi :: lo :: _ => decodeWord (wordOfBytes hi lo)
  | _ => .error .truncated

/-- The word whose bits are `w`, as spec/opcode_table.json numbers them; bits at and above `nbits`
are 0. -/
def tableWord (nbits w : Nat) : Word := BitVec.ofNat 16 (w % 2 ^ nbits)

/-- The instruction the decoder reads from a row's word, laid out as the hardware stores it. -/
def decodeTableWord (nbits w : Nat) : Option Instr :=
  (decode (bytesOfWord (tableWord nbits w))).toOption

/-! ### Encoding (R92, R95) -/

/-- Format NNN. -/
def encodeNNN (major : Nibble) (nnn : Addr12) : Word := major ++ nnn
/-- Format XKK. -/
def encodeXKK (major : Nibble) (x : Reg) (kk : Byte) : Word := major ++ nibbleOfReg x ++ kk
/-- Formats XY and XYN: four digits, the last a literal or `N`. -/
def encodeXYN (major : Nibble) (x y : Reg) (n : Nibble) : Word :=
  major ++ nibbleOfReg x ++ nibbleOfReg y ++ n

/-- The word of an instruction (R95). Format X is a register and a literal low byte. -/
def encode : Instr → Word
  | .cls => 0x00E0#16
  | .ret => 0x00EE#16
  | .jpNnn nnn => encodeNNN 0x1#4 nnn
  | .callNnn nnn => encodeNNN 0x2#4 nnn
  | .seVxKk x kk => encodeXKK 0x3#4 x kk
  | .sneVxKk x kk => encodeXKK 0x4#4 x kk
  | .seVxVy x y => encodeXYN 0x5#4 x y 0x0#4
  | .ldVxKk x kk => encodeXKK 0x6#4 x kk
  | .addVxKk x kk => encodeXKK 0x7#4 x kk
  | .ldVxVy x y => encodeXYN 0x8#4 x y 0x0#4
  | .orVxVy x y => encodeXYN 0x8#4 x y 0x1#4
  | .andVxVy x y => encodeXYN 0x8#4 x y 0x2#4
  | .xorVxVy x y => encodeXYN 0x8#4 x y 0x3#4
  | .addVxVy x y => encodeXYN 0x8#4 x y 0x4#4
  | .subVxVy x y => encodeXYN 0x8#4 x y 0x5#4
  | .shrVx x y => encodeXYN 0x8#4 x y 0x6#4
  | .subnVxVy x y => encodeXYN 0x8#4 x y 0x7#4
  | .shlVx x y => encodeXYN 0x8#4 x y 0xE#4
  | .sneVxVy x y => encodeXYN 0x9#4 x y 0x0#4
  | .ldINnn nnn => encodeNNN 0xA#4 nnn
  | .jpV0Nnn nnn => encodeNNN 0xB#4 nnn
  | .rndVxKk x kk => encodeXKK 0xC#4 x kk
  | .drwVxVyN x y n => encodeXYN 0xD#4 x y n
  | .skpVx x => encodeXKK 0xE#4 x 0x9E#8
  | .sknpVx x => encodeXKK 0xE#4 x 0xA1#8
  | .ldVxDt x => encodeXKK 0xF#4 x 0x07#8
  | .ldVxK x => encodeXKK 0xF#4 x 0x0A#8
  | .ldDtVx x => encodeXKK 0xF#4 x 0x15#8
  | .ldStVx x => encodeXKK 0xF#4 x 0x18#8
  | .addIVx x => encodeXKK 0xF#4 x 0x1E#8
  | .ldFVx x => encodeXKK 0xF#4 x 0x29#8
  | .ldBVx x => encodeXKK 0xF#4 x 0x33#8
  | .ldMemVx x => encodeXKK 0xF#4 x 0x55#8
  | .ldVxMem x => encodeXKK 0xF#4 x 0x65#8

/-! ### The opcode map as patterns (R94, R95)

The four hexadecimal digits of each pattern of R95: a literal the word must equal, or a letter
(`none`) that matches anything. The decoder does not use this list; statements and tests hold the
decoder against it. -/

/-- A pattern: four digits, the most significant first. -/
structure Pattern where
  d3 : Option Nibble
  d2 : Option Nibble
  d1 : Option Nibble
  d0 : Option Nibble
  deriving DecidableEq, Repr

/-- A literal digit must equal the nibble, a letter matches anything (R94). -/
def digitMatches (d : Option Nibble) (n : Nibble) : Bool :=
  match d with
  | none => true
  | some l => l == n

/-- "A word matches a pattern when every literal digit of the pattern equals the corresponding
nibble of the word" (R94). -/
def Pattern.matchesWord (p : Pattern) (op : Word) : Bool :=
  digitMatches p.d3 (fieldMajor op) && digitMatches p.d2 (nibbleX op)
    && digitMatches p.d1 (nibbleY op) && digitMatches p.d0 (fieldN op)

/-- The pattern of an instruction (the pattern column of R95). -/
def Instr.pattern : Instr → Pattern
  | .cls => ⟨some 0x0, some 0x0, some 0xE, some 0x0⟩
  | .ret => ⟨some 0x0, some 0x0, some 0xE, some 0xE⟩
  | .jpNnn _ => ⟨some 0x1, none, none, none⟩
  | .callNnn _ => ⟨some 0x2, none, none, none⟩
  | .seVxKk _ _ => ⟨some 0x3, none, none, none⟩
  | .sneVxKk _ _ => ⟨some 0x4, none, none, none⟩
  | .seVxVy _ _ => ⟨some 0x5, none, none, some 0x0⟩
  | .ldVxKk _ _ => ⟨some 0x6, none, none, none⟩
  | .addVxKk _ _ => ⟨some 0x7, none, none, none⟩
  | .ldVxVy _ _ => ⟨some 0x8, none, none, some 0x0⟩
  | .orVxVy _ _ => ⟨some 0x8, none, none, some 0x1⟩
  | .andVxVy _ _ => ⟨some 0x8, none, none, some 0x2⟩
  | .xorVxVy _ _ => ⟨some 0x8, none, none, some 0x3⟩
  | .addVxVy _ _ => ⟨some 0x8, none, none, some 0x4⟩
  | .subVxVy _ _ => ⟨some 0x8, none, none, some 0x5⟩
  | .shrVx _ _ => ⟨some 0x8, none, none, some 0x6⟩
  | .subnVxVy _ _ => ⟨some 0x8, none, none, some 0x7⟩
  | .shlVx _ _ => ⟨some 0x8, none, none, some 0xE⟩
  | .sneVxVy _ _ => ⟨some 0x9, none, none, some 0x0⟩
  | .ldINnn _ => ⟨some 0xA, none, none, none⟩
  | .jpV0Nnn _ => ⟨some 0xB, none, none, none⟩
  | .rndVxKk _ _ => ⟨some 0xC, none, none, none⟩
  | .drwVxVyN _ _ _ => ⟨some 0xD, none, none, none⟩
  | .skpVx _ => ⟨some 0xE, none, some 0x9, some 0xE⟩
  | .sknpVx _ => ⟨some 0xE, none, some 0xA, some 0x1⟩
  | .ldVxDt _ => ⟨some 0xF, none, some 0x0, some 0x7⟩
  | .ldVxK _ => ⟨some 0xF, none, some 0x0, some 0xA⟩
  | .ldDtVx _ => ⟨some 0xF, none, some 0x1, some 0x5⟩
  | .ldStVx _ => ⟨some 0xF, none, some 0x1, some 0x8⟩
  | .addIVx _ => ⟨some 0xF, none, some 0x1, some 0xE⟩
  | .ldFVx _ => ⟨some 0xF, none, some 0x2, some 0x9⟩
  | .ldBVx _ => ⟨some 0xF, none, some 0x3, some 0x3⟩
  | .ldMemVx _ => ⟨some 0xF, none, some 0x5, some 0x5⟩
  | .ldVxMem _ => ⟨some 0xF, none, some 0x6, some 0x5⟩

/-- One instruction of each row of R95, in its order. -/
def rowSamples : List Instr :=
  [.cls, .ret, .jpNnn 0, .callNnn 0, .seVxKk 0 0, .sneVxKk 0 0, .seVxVy 0 0]
  ++ [.ldVxKk 0 0, .addVxKk 0 0, .ldVxVy 0 0, .orVxVy 0 0, .andVxVy 0 0, .xorVxVy 0 0, .addVxVy 0 0]
  ++ [.subVxVy 0 0, .shrVx 0 0, .subnVxVy 0 0, .shlVx 0 0, .sneVxVy 0 0, .ldINnn 0, .jpV0Nnn 0]
  ++ [.rndVxKk 0 0, .drwVxVyN 0 0 0, .skpVx 0, .sknpVx 0, .ldVxDt 0, .ldVxK 0, .ldDtVx 0]
  ++ [.ldStVx 0, .addIVx 0, .ldFVx 0, .ldBVx 0, .ldMemVx 0, .ldVxMem 0]

/-- The 34 patterns of R95, in its order. -/
def opcodePatterns : List Pattern := rowSamples.map Instr.pattern

/-- The bits a digit fixes, and their values: the mask and match columns of R95. -/
def digitMask (d : Option Nibble) : Nibble := if d.isSome then 0xF#4 else 0x0#4
def Pattern.mask (p : Pattern) : Word :=
  digitMask p.d3 ++ digitMask p.d2 ++ digitMask p.d1 ++ digitMask p.d0
def Pattern.value (p : Pattern) : Word :=
  p.d3.getD 0 ++ p.d2.getD 0 ++ p.d1.getD 0 ++ p.d0.getD 0

end Sys2Proof
end

