-- ==== Sys2Proof/Machine/Flags.lean ====
section
/-! DEFINITION. The values of the flag `VF` (spec/10_state.md R22; spec/42_alu.md R162): each is
exactly 0 or 1. -/

namespace Sys2Proof.Machine

/-- 1 or 0 in a register. -/
def flagByte (c : Bool) : Byte := if c then 1 else 0

/-- The carry of `8XY4`: 1 if the natural-number sum passes 255 (R156, R162). -/
def carryFlag (a b : Byte) : Byte := flagByte (255 < a.toNat + b.toNat)

/-- The flag of `8XY5` and `8XY7`: 1 when there is no borrow, minuend at least subtrahend (R157,
R159, R162). -/
def notBorrowFlag (minuend subtrahend : Byte) : Byte := flagByte (subtrahend.toNat ≤ minuend.toNat)

/-- The bit `8XY6` shifts out: bit 0 (R158). -/
def shiftedOutLow (a : Byte) : Byte := a &&& 1

/-- The bit `8XYE` shifts out: bit 7, as 0 or 1 (R160). -/
def shiftedOutHigh (a : Byte) : Byte := (a >>> 7) &&& 1

/-- `v[15] <- f`. -/
def State.setVF (s : State) (f : Byte) : State := s.setReg VF f

end Sys2Proof.Machine
end

