-- ==== Sys2Proof/Machine/Operands.lean ====
section
/-! DEFINITION. The operand forms (spec/30_encoding.md R93; spec/43_index_memory.md R186): immediates
are zero-extended, registers direct, memory at `I + k`, glyphs and keys selected by a low nibble. -/

namespace Sys2Proof.Machine

/-- `zext_16(NNN)` (R93). -/
def zext16 (nnn : Addr12) : Word := nnn.setWidth 16

/-- A byte zero-extended to 16 bits. -/
def byteToWord (b : Byte) : Word := b.setWidth 16

/-- `EA = I + k` on natural numbers, not reduced (R186; spec/20_memory.md R61; log 24). -/
def State.effectiveAddress (s : State) (k : Nat) : Nat := s.I.toNat + k

/-- The low nibble of a byte as a selector of 16: the glyph of `FX29` (R182), the key of `EX9E` and
`EXA1` (R220, R221). DESIGN CHOICE of the spec for values above 0xF (D12, D13; log 11, 12). -/
def lowNibble (b : Byte) : Fin 16 := ⟨b.toNat % 16, Nat.mod_lt _ (by decide)⟩

/-- The decimal digits of a byte: hundreds, tens, ones, each a number 0 to 9 in a byte of its own
(spec/43_index_memory.md R183). -/
def decimalDigits (b : Byte) : List Byte :=
  [BitVec.ofNat 8 (b.toNat / 100), BitVec.ofNat 8 (b.toNat / 10 % 10), BitVec.ofNat 8 (b.toNat % 10)]

/-- The least `j` with `key[j] = 1`, if any key is down (spec/45_keypad_timers.md R222). -/
def State.lowestKey (s : State) : Option KeyIndex := (List.finRange 16).find? s.keyDown

/-- The random byte of the current cycle: the input of `Cycle(rnd)`, or the environment's free
value where the schedule gives none (spec/40_cycle.md R119; log 2). -/
def State.randomByte (s : State) : Byte := s.rnd.getD (Config.randomByte s.draws)

/-- One random byte has been read (log 2). -/
def State.countDraw (s : State) : State := { s with draws := s.draws + 1 }

end Sys2Proof.Machine
end

