-- ==== Sys2Proof/Machine/Alu.lean ====
section
/-! DEFINITION. Register load, arithmetic, logic, shift, random (spec/42_alu.md). All sources are read
from the state the instruction began with; the writes follow in the order of the rule, so that a
later write to `VF` stands (R163; spec/00_scope.md R10; log 14). -/

namespace Sys2Proof.Machine

/-- Write one register and go on. -/
def writeReg (x : Reg) (b : Byte) (s : State) : Result := .next ((s.setReg x b).goto s.npc)

/-- Write the result, then the flag (`8XY4`, `8XY5`, `8XY7`; R163). -/
def writeRegThenFlag (x : Reg) (b flag : Byte) (s : State) : Result :=
  .next (((s.setReg x b).setVF flag).goto s.npc)

/-- Write the flag, then the result (`8XY6`, `8XYE`; R163). -/
def writeFlagThenReg (x : Reg) (b flag : Byte) (s : State) : Result :=
  .next (((s.setVF flag).setReg x b).goto s.npc)

/-- `6XKK` (R150). -/
def execLdVxKk (x : Reg) (kk : Byte) (s : State) : Result := writeReg x kk s

/-- `7XKK` (R151): no flag. -/
def execAddVxKk (x : Reg) (kk : Byte) (s : State) : Result :=
  writeReg x (BitVec.ofNat 8 ((s.reg x).toNat + kk.toNat)) s

/-- `8XY0` (R152). -/
def execLdVxVy (x y : Reg) (s : State) : Result := writeReg x (s.reg y) s

/-- `8XY1` (R153). -/
def execOrVxVy (x y : Reg) (s : State) : Result := writeReg x (s.reg x ||| s.reg y) s

/-- `8XY2` (R154). -/
def execAndVxVy (x y : Reg) (s : State) : Result := writeReg x (s.reg x &&& s.reg y) s

/-- `8XY3` (R155). -/
def execXorVxVy (x y : Reg) (s : State) : Result := writeReg x (s.reg x ^^^ s.reg y) s

/-- `8XY4` (R156): the natural-number sum modulo 256, and its carry. -/
def execAddVxVy (x y : Reg) (s : State) : Result :=
  writeRegThenFlag x (BitVec.ofNat 8 ((s.reg x).toNat + (s.reg y).toNat))
    (carryFlag (s.reg x) (s.reg y)) s

/-- `8XY5` (R157): the integer difference modulo 256. -/
def execSubVxVy (x y : Reg) (s : State) : Result :=
  writeRegThenFlag x (BitVec.ofInt 8 ((s.reg x).toNat - (s.reg y).toNat))
    (notBorrowFlag (s.reg x) (s.reg y)) s

/-- `8XY6` (R158): `y` is not read. -/
def execShrVx (x _y : Reg) (s : State) : Result :=
  writeFlagThenReg x (s.reg x >>> 1) (shiftedOutLow (s.reg x)) s

/-- `8XY7` (R159). -/
def execSubnVxVy (x y : Reg) (s : State) : Result :=
  writeRegThenFlag x (BitVec.ofInt 8 ((s.reg y).toNat - (s.reg x).toNat))
    (notBorrowFlag (s.reg y) (s.reg x)) s

/-- `8XYE` (R160): `y` is not read. -/
def execShlVx (x _y : Reg) (s : State) : Result :=
  writeFlagThenReg x (s.reg x <<< 1) (shiftedOutHigh (s.reg x)) s

/-- `CXKK` (R161): the random byte is any value. -/
def execRndVxKk (x : Reg) (kk : Byte) (s : State) : Result :=
  writeReg x (s.randomByte &&& kk) s.countDraw

end Sys2Proof.Machine
end

