-- ==== Sys2Proof/Machine/Display.lean ====
section
/-! DEFINITION. The display and the XOR-blit engine (spec/44_display.md). -/

namespace Sys2Proof.Machine

/-- The engine's working state: the display buffer so far and whether some toggle has turned a set
pixel off. -/
structure Blit where
  fb  : FrameBuffer
  hit : Bool
  deriving DecidableEq, Repr

/-- Column `c` of a sprite row at `(x0, y)`: nothing for a 0 bit; for a 1 bit the pixel is toggled,
and it is a collision if it was set (R201). -/
def blitPixel (b : Byte) (x0 y : Nat) (acc : Blit) (c : Nat) : Blit :=
  if spriteBit b c then
    { fb := acc.fb.toggle (x0 + c) y, hit := acc.hit || acc.fb.pixel (x0 + c) y }
  else acc

/-- The eight columns of a sprite row. -/
def blitRow (b : Byte) (x0 y : Nat) (acc : Blit) : Blit :=
  (List.range 8).foldl (blitPixel b x0 y) acc

/-- The rows of a sprite, one byte of memory and one display row at a time (R201). -/
def blitRows : List Byte → Nat → Nat → Blit → Blit
  | [], _, _, acc => acc
  | b :: bs, x0, y, acc => blitRows bs x0 (y + 1) (blitRow b x0 y acc)

/-- `rows = MemRead(I, N) if N > 0 else []`: no read is issued for `N = 0` (R201; spec/20_memory.md
R64). -/
def spriteRows (n : Nibble) (s : State) : Except (FatalFault × Nat) (List Byte) :=
  if n = 0 then .ok [] else memRead s (s.effectiveAddress 0) n.toNat

/-- `00E0` (R200): dirty is set whether or not a pixel was. -/
def execCls (s : State) : Result := .next ((s.setFrame FrameBuffer.clear).goto s.npc)

/-- `DXYN` (R201): the position is read before `VF` is written. -/
def execDrwVxVyN (x y : Reg) (n : Nibble) (s : State) : Result :=
  match spriteRows n s with
  | .error (f, info) => .next (s.raise f info)
  | .ok rows =>
    let drawn := blitRows rows (s.reg x).toNat (s.reg y).toNat ⟨s.fb, false⟩
    .next (((s.setFrame drawn.fb).setVF (flagByte drawn.hit)).goto s.npc)

end Sys2Proof.Machine
end

