-- ==== Sys2Proof/Machine/Flow.lean ====
section
/-! DEFINITION. Control transfer (spec/41_flow.md). None of these writes a `v` register, `I`, memory,
the timers, the display or `dirty`. -/

namespace Sys2Proof.Machine

/-- "Skip next instruction": `pc <- npc + 2`, else `pc <- npc` (R138; spec/40_cycle.md R117). -/
def skipIf (c : Bool) (s : State) : Result := .next (s.goto (if c then s.npc + 2 else s.npc))

/-- `00EE` (R130): the fault's info is the address of the instruction. -/
def execRet (s : State) : Result :=
  match s.pop with
  | none => .next (s.raise .stackUnderflow s.pc.toNat)
  | some (target, popped) => .next (popped.goto target)

/-- `1NNN` (R131). -/
def execJpNnn (nnn : Addr12) (s : State) : Result := .next (s.goto (zext16 nnn))

/-- `2NNN` (R132): the address after the call is pushed. -/
def execCallNnn (nnn : Addr12) (s : State) : Result :=
  match s.push s.npc with
  | none => .next (s.raise .stackOverflow s.pc.toNat)
  | some pushed => .next (pushed.goto (zext16 nnn))

/-- `3XKK` (R133). -/
def execSeVxKk (x : Reg) (kk : Byte) (s : State) : Result := skipIf (s.reg x == kk) s

/-- `4XKK` (R134). -/
def execSneVxKk (x : Reg) (kk : Byte) (s : State) : Result := skipIf (s.reg x != kk) s

/-- `5XY0` (R135). -/
def execSeVxVy (x y : Reg) (s : State) : Result := skipIf (s.reg x == s.reg y) s

/-- `9XY0` (R136). -/
def execSneVxVy (x y : Reg) (s : State) : Result := skipIf (s.reg x != s.reg y) s

/-- `BNNN` (R137): the sum is not cut to 12 bits. -/
def execJpV0Nnn (nnn : Addr12) (s : State) : Result :=
  .next (s.goto (zext16 nnn + byteToWord (s.reg V0)))

end Sys2Proof.Machine
end

