-- ==== Sys2Proof/Machine/IndexMemory.lean ====
section
/-! DEFINITION. Index register and memory transfer (spec/43_index_memory.md). `I` is never modified by
a transfer (R186); a faulting access has no effect but the fault (spec/40_cycle.md R115). -/

namespace Sys2Proof.Machine

/-- Store bytes from `I` upward and go on, or take the fault of the range check (R65, R183, R184). -/
def storeAtIndex (bs : List Byte) (s : State) : Result :=
  match memWrite s (s.effectiveAddress 0) bs with
  | .error (f, info) => .next (s.raise f info)
  | .ok stored => .next (stored.goto s.npc)

/-- `ANNN` (R180). -/
def execLdINnn (nnn : Addr12) (s : State) : Result := .next ((s.setI (zext16 nnn)).goto s.npc)

/-- `FX1E` (R181): modulo 65536, no flag (log 13). -/
def execAddIVx (x : Reg) (s : State) : Result :=
  .next ((s.setI (BitVec.ofNat 16 (s.I.toNat + (s.reg x).toNat))).goto s.npc)

/-- `FX29` (R182). -/
def execLdFVx (x : Reg) (s : State) : Result :=
  .next ((s.setI (glyphAddress (lowNibble (s.reg x)))).goto s.npc)

/-- `FX33` (R183): hundreds at `I`, tens at `I + 1`, ones at `I + 2`. -/
def execLdBVx (x : Reg) (s : State) : Result := storeAtIndex (decimalDigits (s.reg x)) s

/-- `FX55` (R184): `mem[I + i] = v[i]`, `i = 0..X`. -/
def execLdMemVx (x : Reg) (s : State) : Result := storeAtIndex (s.regsUpTo x) s

/-- `FX65` (R185): `v[i] = mem[I + i]`, `i = 0..X`. -/
def execLdVxMem (x : Reg) (s : State) : Result :=
  match memRead s (s.effectiveAddress 0) (x.val + 1) with
  | .error (f, info) => .next (s.raise f info)
  | .ok bs => .next ((s.setRegs bs).goto s.npc)

end Sys2Proof.Machine
end

