-- ==== Sys2Proof/Machine/KeypadTimers.lean ====
section
/-! DEFINITION. Keypad and timer instructions (spec/45_keypad_timers.md). None raises a fault. -/

namespace Sys2Proof.Machine

/-- `EX9E` (R220): the key is selected by the value of `v[X]`. -/
def execSkpVx (x : Reg) (s : State) : Result := skipIf (s.keyDown (lowNibble (s.reg x))) s

/-- `EXA1` (R221). -/
def execSknpVx (x : Reg) (s : State) : Result := skipIf (!s.keyDown (lowNibble (s.reg x))) s

/-- `FX07` (R223). -/
def execLdVxDt (x : Reg) (s : State) : Result := writeReg x s.DT s

/-- `FX0A` (R222): with no key down the machine stays on this instruction (`pc <- npc - 2`). -/
def execLdVxK (x : Reg) (s : State) : Result :=
  match s.lowestKey with
  | none => .next (s.goto (s.npc - 2))
  | some j => writeReg x (BitVec.ofNat 8 j.val) s

/-- `FX15` (R224). -/
def execLdDtVx (x : Reg) (s : State) : Result := .next ((s.setDT (s.reg x)).goto s.npc)

/-- `FX18` (R225). -/
def execLdStVx (x : Reg) (s : State) : Result := .next ((s.setST (s.reg x)).goto s.npc)

end Sys2Proof.Machine
end

