-- ==== Sys2Proof/Machine/Cycle.lean ====
section
/-! DEFINITION. The transition `Cycle` (spec/40_cycle.md R110 to R117) and the unrecognized word. -/

namespace Sys2Proof.Machine

/-- An unrecognized word is a no-op with a decode warning: `pc <- npc` and nothing else (R116). -/
def State.warnUnrecognized (s : State) (op : Word) : State :=
  (s.emit (.decodeWarning op s.pc.toNat)).goto s.npc

/-- Fetch, decode, execute, on a state in which the cycle has begun: the halt check (R111), the
fetch check (R112), then the instruction's own rule or the warning (R113, R114, R116). -/
def runCycle (s : State) : Result :=
  if s.halted then .next s
  else if fetchable s.pc then
    match decodeWord s.fetchWord with
    | .ok i => exec i s
    | .error _ => .next (s.warnUnrecognized s.fetchWord)
  else .next (s.raise .pcOutOfBounds s.pc.toNat)

end Sys2Proof.Machine
end

