-- ==== Sys2Proof/Machine/Step.lean ====
section
/-! DEFINITION. One step: the next transition of the schedule, or the interpreter's where the
schedule is empty (spec/20_memory.md R74; log 1). -/

namespace Sys2Proof.Machine

/-- One transition of the machine, atomic (R70, R74). -/
def step (s : State) : Host.Outcome State Fault Refusal :=
  match s.schedule with
  | [] => runCycle (s.beginCycle [] none)
  | .cycle rnd :: rest => runCycle (s.beginCycle rest (some rnd))
  | .tick :: rest => .next (tickTimers (s.beginTransition rest none))
  | .keyWrite k :: rest => .next (writeKeys k (s.beginTransition rest none))
  | .frameAck :: rest => .next (ackFrame (s.beginTransition rest none))
  | .load bytes offset :: rest => loadBytes bytes offset (s.beginTransition rest none)
  | .reset :: rest => .next (s.beginTransition rest none).applyReset

/-- The state with an instruction's word stored where the next step fetches it, and that step the
interpreter's: no other transition is scheduled, the machine is not halted, and a `pc` from which
nothing can be fetched is moved to the program's entry (log 19). -/
def State.withFetchWord (s : State) (nbits w : Nat) : State :=
  let pc := if fetchable s.pc then s.pc else BitVec.ofNat 16 Config.progBase
  { s with
    mem := s.mem.writeBytes pc.toNat (bytesOfWord (tableWord nbits w)),
    pc := pc, schedule := [], halted := false, cause := 0 }

end Sys2Proof.Machine
end

