-- ==== Sys2Proof/Safety.lean ====
section
/-! DEFINITION. The terms the claims use: what a transition leaves alone (`SameBut`), what holds of
every state a run reaches (`Inv`), and a machine that runs or has stopped for good. -/

namespace Sys2Proof.Machine

/-- The fields of the state, as names: the thirteen of spec/10_state.md R20 and the model's own
six. -/
inductive StateField where
  | mem | v | I | pc | sp | stack | DT | ST | fb | dirty | key | halted | cause
  | started | schedule | rnd | draws | events | reply
  deriving DecidableEq, Repr

/-- Every field of the state but the named ones has in `t` the value it has in `s`; memory is
compared by what each address reads. -/
def SameBut (fs : List StateField) (s t : State) : Prop :=
  (.mem ∉ fs → ∀ a, t.mem.read a = s.mem.read a) ∧
  (.v ∉ fs → ∀ r, t.reg r = s.reg r) ∧
  (.I ∉ fs → t.I = s.I) ∧
  (.pc ∉ fs → t.pc = s.pc) ∧
  (.sp ∉ fs → t.sp = s.sp) ∧
  (.stack ∉ fs → t.stack = s.stack) ∧
  (.DT ∉ fs → t.DT = s.DT) ∧
  (.ST ∉ fs → t.ST = s.ST) ∧
  (.fb ∉ fs → t.fb = s.fb) ∧
  (.dirty ∉ fs → t.dirty = s.dirty) ∧
  (.key ∉ fs → t.key = s.key) ∧
  (.halted ∉ fs → t.halted = s.halted) ∧
  (.cause ∉ fs → t.cause = s.cause) ∧
  (.started ∉ fs → t.started = s.started) ∧
  (.schedule ∉ fs → t.schedule = s.schedule) ∧
  (.rnd ∉ fs → t.rnd = s.rnd) ∧
  (.draws ∉ fs → t.draws = s.draws) ∧
  (.events ∉ fs → t.events = s.events) ∧
  (.reply ∉ fs → t.reply = s.reply)

/-- The registers but those named hold in `t` what they hold in `s`. -/
def RegsSameBut (rs : List Reg) (s t : State) : Prop := ∀ r, r ∉ rs → t.reg r = s.reg r

/-- What every step keeps: the canonical form of memory; `cause` holds a code of
spec/60_exceptions.md R245, and is 0 exactly while the machine runs (spec/10_state.md R35); `pc` is
at most 0x10FE (R26); every live return address is at most 0x1000 (R26, R28). -/
structure Inv (s : State) : Prop where
  memory : s.mem.wf
  cause_is_code : s.cause.toNat ≤ 4
  halted_iff_cause : s.halted = true ↔ s.cause ≠ 0
  pc_bound : s.pc.toNat ≤ 0x10FE
  return_address_bound : ∀ (j : Nat) (h : j < 16), j < s.sp.val → (s.stack[j]).toNat ≤ 0x1000

/-- The next transition is the interpreter's: the schedule is empty or begins with a `Cycle` (log 1). -/
def State.cycleIsNext (s : State) : Bool :=
  match s.schedule with
  | [] => true
  | .cycle _ :: _ => true
  | .tick :: _ => false
  | .keyWrite _ :: _ => false
  | .frameAck :: _ => false
  | .load _ _ :: _ => false
  | .reset :: _ => false

/-- The next transition is `Reset`. -/
def State.resetIsNext (s : State) : Bool := s.schedule.head? == some .reset

/-- The state a `raise` of fault `f` leaves: `halted` and `cause` are set, the event is emitted with
its info, and every other field is as it was (spec/00_scope.md R11). -/
def TakesFault (f : FatalFault) (info : Nat) (s t : State) : Prop :=
  t.halted = true ∧ t.cause = f.code ∧ t.events = s.events ++ [.fault f.code info] ∧
  SameBut [.halted, .cause, .events] s t

/-- A 1 bit of the sprite of `n` rows at memory address `a`, drawn from `(x0, y0)`, falls on the
pixel `(px, py)`: row `r`, column `c` of the sprite is bit `7 - c` of the byte at `a + r` and lands
on column `(x0 + c) mod 64`, row `(y0 + r) mod 32` (spec/44_display.md R201, R203). -/
def SpriteCovers (m : Memory) (a n x0 y0 px py : Nat) : Prop :=
  ∃ r c, r < n ∧ c < 8 ∧ (m.read (a + r)).getLsbD (7 - c) = true ∧
    px = (x0 + c) % 64 ∧ py = (y0 + r) % 32

/-- The machine has not met a fatal fault: its cycles execute instructions (spec/10_state.md R34). -/
def State.running (s : State) : Bool := !s.halted

end Sys2Proof.Machine
end

