-- ==== Sys2Proof/Certificates/Slice0/Obligations.lean ====
section
/-! DEFINITION. The statements for the provers. `s.pc + 2` is the sum on 16 bits; for every `pc` from
which a word can be fetched it is the natural-number sum `npc` of spec/40_cycle.md R112 (log 20).
`SameBut fs s t` says that every field of the state but those listed is unchanged. -/

open Sys2Proof Sys2Proof.Machine

/-! ### Encoding -/

/-- 30_encoding.md sections 1 and 3: each instruction is well-formed and decodes from its own word,
and a word that decodes is the word of what it decodes to; so no bit of an encoding is dropped. -/
def Obligations.DecodeAndEncodeAreInverse : Prop :=
  (∀ i : Instr, i.wellFormed = true ∧ decodeWord (encode i) = .ok i) ∧
  (∀ (op : Word) (i : Instr), decodeWord op = .ok i → encode i = op)

/-- R94: a word is an instruction exactly when it matches one of the 34 patterns, it then decodes to
an instruction of a pattern it matches, and no word matches two of them. -/
def Obligations.DecodeAcceptsExactlyThePatterns : Prop :=
  (∀ op : Word, (∃ i, decodeWord op = .ok i) ↔ ∃ p ∈ opcodePatterns, p.matchesWord op = true) ∧
  (∀ (op : Word) (i : Instr), decodeWord op = .ok i → i.pattern.matchesWord op = true) ∧
  (∀ op : Word, ∀ p ∈ opcodePatterns, ∀ q ∈ opcodePatterns,
    p.matchesWord op = true → q.matchesWord op = true → p = q)

/-- 30_encoding.md section 4, the table of unrecognized words: a word is rejected, by name, exactly
when it is of one of the six rows. -/
def Obligations.RejectedWordsAreThoseOfTheTable : Prop :=
  ∀ op : Word, decodeWord op = .error (.unrecognized op) ↔
    (fieldMajor op = 0x0#4 ∧ op ≠ 0x00E0#16 ∧ op ≠ 0x00EE#16) ∨
    (fieldMajor op = 0x5#4 ∧ fieldN op ≠ 0#4) ∨
    (fieldMajor op = 0x8#4 ∧ fieldN op ∈ [0x8#4, 0x9#4, 0xA#4, 0xB#4, 0xC#4, 0xD#4, 0xF#4]) ∨
    (fieldMajor op = 0x9#4 ∧ fieldN op ≠ 0#4) ∨
    (fieldMajor op = 0xE#4 ∧ fieldKK op ∉ [0x9E#8, 0xA1#8]) ∨
    (fieldMajor op = 0xF#4 ∧
      fieldKK op ∉ [0x07#8, 0x0A#8, 0x15#8, 0x18#8, 0x1E#8, 0x29#8, 0x33#8, 0x55#8, 0x65#8])

/-- Words of the examples in 41_flow.md to 45_keypad_timers.md, one or more of each family, decode to
the instruction they stand for; the bytes are the high one first. -/
def Obligations.WrittenOutWordsDecode : Prop :=
  decode [0x00, 0xE0] = .ok .cls ∧
  decode [0x00, 0xEE] = .ok .ret ∧
  decode [0x22, 0x10] = .ok (.callNnn 0x210) ∧
  decode [0x4A, 0x05] = .ok (.sneVxKk 10 0x05) ∧
  decode [0x81, 0x27] = .ok (.subnVxVy 1 2) ∧
  decode [0xC3, 0x0F] = .ok (.rndVxKk 3 0x0F) ∧
  decode [0xA3, 0x00] = .ok (.ldINnn 0x300) ∧
  decode [0xF2, 0x65] = .ok (.ldVxMem 2) ∧
  decode [0xD0, 0x12] = .ok (.drwVxVyN 0 1 2) ∧
  decode [0xE0, 0x9E] = .ok (.skpVx 0) ∧
  decode [0xF1, 0x07] = .ok (.ldVxDt 1)

/-! ### The cycle -/

/-- 40_cycle.md section 1: when the machine runs, its `pc` lies in `0x000 .. 0xFFE` and the two bytes
at `pc`, high byte first, decode to `i`, a step is `exec i` of the state with the outputs of the last
transition cleared, the random input of this cycle in place and the schedule moved on. The schedule
and the cleared fields are the model's choice (logs 1, 2, 3, 5). The range of `pc` rests on the spec's
decision D2 (log 7). -/
def Obligations.StepRunsTheDecodedInstruction : Prop :=
  ∀ (s : State) (i : Instr),
    s.halted = false → s.pc.toNat ≤ 0xFFE →
    decode [s.mem.read s.pc.toNat, s.mem.read (s.pc.toNat + 1)] = .ok i →
    (s.schedule = [] →
      step s = exec i { s with started := true, schedule := [], rnd := none, events := [],
                               reply := .none }) ∧
    (∀ rnd rest, s.schedule = .cycle rnd :: rest →
      step s = exec i { s with started := true, schedule := rest, rnd := some rnd, events := [],
                               reply := .none })

/-- 40_cycle.md section 1 (the halt check): a cycle of a halted machine changes nothing and emits
nothing; only the model's own fields move. The spec's decision D6 (log 16). -/
def Obligations.HaltedCycleChangesNothing : Prop :=
  ∀ s : State, s.halted = true → s.cycleIsNext = true →
    ∃ t, step s = .next t ∧ t.events = [] ∧
      SameBut [.started, .schedule, .rnd, .events, .reply] s t

/-- 40_cycle.md section 1 (fetch) and 60_exceptions.md section 1: from `pc` at or above 0xFFF the
cycle takes PC_OUT_OF_BOUNDS with the `pc` as info and has no other effect; `pc` keeps its value. That
nothing else changes is the spec's decision D4 (log 15). -/
def Obligations.FetchOutsideMemoryTakesFault : Prop :=
  ∀ s : State, s.halted = false → s.cycleIsNext = true → 0xFFF ≤ s.pc.toNat →
    ∃ t, step s = .next t ∧ t.halted = true ∧ t.cause = FatalFault.pcOutOfBounds.code ∧
      t.events = [.fault FatalFault.pcOutOfBounds.code s.pc.toNat] ∧
      SameBut [.halted, .cause, .started, .schedule, .rnd, .events, .reply] s t

/-- R116: an unrecognized word is a no-op with a decode warning of the word and its address; `pc`
moves past it and nothing else of the spec's state changes. -/
def Obligations.UnrecognizedWordIsNoOpWithWarning : Prop :=
  ∀ (s : State) (op : Word), s.halted = false → s.cycleIsNext = true → s.pc.toNat ≤ 0xFFE →
    op = s.mem.read s.pc.toNat ++ s.mem.read (s.pc.toNat + 1) →
    decodeWord op = .error (.unrecognized op) →
    ∃ t, step s = .next t ∧ t.pc.toNat = s.pc.toNat + 2 ∧
      t.events = [.decodeWarning op s.pc.toNat] ∧ t.halted = false ∧
      SameBut [.pc, .started, .schedule, .rnd, .events, .reply] s t

/-- 40_cycle.md section 1 (commit or abort) and 00_scope.md section 5: an instruction that makes a
running machine halt has taken one fatal fault and had no other effect. The spec's decision D4
(log 15). -/
def Obligations.FaultingInstructionHasNoOtherEffect : Prop :=
  ∀ (i : Instr) (s t : State), s.halted = false → exec i s = .next t → t.halted = true →
    ∃ f info, TakesFault f info s t

/-- 60_exceptions.md section 2 (priority): which instruction can fault, with which fault, exactly when
and with which info; the other 28 never do. -/
def Obligations.InstructionsFaultExactlyWhen : Prop :=
  ∀ (i : Instr) (s t : State), s.halted = false → exec i s = .next t →
    match i with
    | .callNnn _ =>
      if s.sp.val = 16 then TakesFault .stackOverflow s.pc.toNat s t else t.halted = false
    | .ret => if s.sp.val = 0 then TakesFault .stackUnderflow s.pc.toNat s t else t.halted = false
    | .drwVxVyN _ _ n =>
      if n ≠ 0 ∧ 4096 < s.I.toNat + n.toNat
      then TakesFault .memOutOfRange (max s.I.toNat 4096) s t else t.halted = false
    | .ldBVx _ =>
      if 4096 < s.I.toNat + 3
      then TakesFault .memOutOfRange (max s.I.toNat 4096) s t else t.halted = false
    | .ldMemVx x =>
      if 4096 < s.I.toNat + x.val + 1
      then TakesFault .memOutOfRange (max s.I.toNat 4096) s t else t.halted = false
    | .ldVxMem x =>
      if 4096 < s.I.toNat + x.val + 1
      then TakesFault .memOutOfRange (max s.I.toNat 4096) s t else t.halted = false
    | _ => t.halted = false

/-- No instruction stops the model, and a step stops only for a `Load` scheduled after the first
`Cycle`, to which 70_reset_and_hazards.md section 1 gives no move (log 5). -/
def Obligations.StepStopsOnlyOnLateLoad : Prop :=
  (∀ (i : Instr) (s : State), ∃ t, exec i s = .next t) ∧
  (∀ s : State, (∃ t, step s = .next t) ∨ step s = .fault .loadAfterFirstCycle) ∧
  (∀ s : State, step s = .fault .loadAfterFirstCycle ↔
    s.started = true ∧ ∃ bytes offset rest, s.schedule = .load bytes offset :: rest)

/-! ### Control transfer -/

/-- R131: the jump, and the jump to itself as a fixed point of the cycle. -/
def Obligations.JumpWritesPc : Prop :=
  (∀ (s : State) (nnn : Addr12),
    decodeWord (encodeNNN 0x1#4 nnn) = .ok (.jpNnn nnn) ∧
    ∃ t, exec (.jpNnn nnn) s = .next t ∧ t.pc.toNat = nnn.toNat ∧ SameBut [.pc] s t) ∧
  (∀ (s : State) (nnn : Addr12), s.halted = false → s.cycleIsNext = true → s.pc.toNat ≤ 0xFFE →
    s.mem.read s.pc.toNat ++ s.mem.read (s.pc.toNat + 1) = encodeNNN 0x1#4 nnn →
    nnn.toNat = s.pc.toNat →
    ∃ t, step s = .next t ∧ SameBut [.started, .schedule, .rnd, .events, .reply] s t)

/-- R137: the indexed jump adds `v[0]`, with no wrap to 12 bits. -/
def Obligations.IndexedJumpAddsV0 : Prop :=
  ∀ (s : State) (nnn : Addr12),
    decodeWord (encodeNNN 0xB#4 nnn) = .ok (.jpV0Nnn nnn) ∧
    ∃ t, exec (.jpV0Nnn nnn) s = .next t ∧ t.pc.toNat = nnn.toNat + (s.reg V0).toNat ∧
      SameBut [.pc] s t

/-- R133, R134: the two skips on an immediate. -/
def Obligations.ImmediateSkipsTestTheirOperands : Prop :=
  ∀ (s : State) (x : Reg) (kk : Byte),
    decodeWord (encodeXKK 0x3#4 x kk) = .ok (.seVxKk x kk) ∧
    decodeWord (encodeXKK 0x4#4 x kk) = .ok (.sneVxKk x kk) ∧
    (∃ t, exec (.seVxKk x kk) s = .next t ∧
      t.pc = (if s.reg x = kk then s.pc + 4 else s.pc + 2) ∧ SameBut [.pc] s t) ∧
    (∃ t, exec (.sneVxKk x kk) s = .next t ∧
      t.pc = (if s.reg x = kk then s.pc + 2 else s.pc + 4) ∧ SameBut [.pc] s t)

/-- 41_flow.md section 3: the two skips on a pair of registers; with the same register twice the first
always skips and the second never. That a last digit other than 0 is no instruction is the spec's
decision D16 (log 25). -/
def Obligations.RegisterSkipsTestTheirOperands : Prop :=
  ∀ (s : State) (x y : Reg),
    decodeWord (encodeXYN 0x5#4 x y 0x0#4) = .ok (.seVxVy x y) ∧
    decodeWord (encodeXYN 0x9#4 x y 0x0#4) = .ok (.sneVxVy x y) ∧
    (∀ n : Nibble, n ≠ 0 →
      decodeWord (encodeXYN 0x5#4 x y n) = .error (.unrecognized (encodeXYN 0x5#4 x y n)) ∧
      decodeWord (encodeXYN 0x9#4 x y n) = .error (.unrecognized (encodeXYN 0x9#4 x y n))) ∧
    (∃ t, exec (.seVxVy x y) s = .next t ∧
      t.pc = (if x = y ∨ s.reg x = s.reg y then s.pc + 4 else s.pc + 2) ∧ SameBut [.pc] s t) ∧
    (∃ t, exec (.sneVxVy x y) s = .next t ∧
      t.pc = (if x = y ∨ s.reg x = s.reg y then s.pc + 2 else s.pc + 4) ∧ SameBut [.pc] s t)

/-- 41_flow.md section 2: with room a call pushes the address after it and jumps; with 16 addresses
held it takes STACK_OVERFLOW with its own address and changes nothing else (the spec's decision D4,
log 15). -/
def Obligations.CallPushesReturnAddress : Prop :=
  ∀ (s : State) (nnn : Addr12),
    (s.sp.val < 16 → ∃ t, exec (.callNnn nnn) s = .next t ∧
      (∀ (j : Nat) (hj : j < 16),
        t.stack[j] = if j = s.sp.val then s.pc + 2 else s.stack[j]) ∧
      t.sp.val = s.sp.val + 1 ∧ t.pc.toNat = nnn.toNat ∧ SameBut [.stack, .sp, .pc] s t) ∧
    (s.sp.val = 16 → ∃ t, exec (.callNnn nnn) s = .next t ∧
      TakesFault .stackOverflow s.pc.toNat s t)

/-- 41_flow.md section 2: a return takes the newest live address and leaves the entry in place (the
spec's decision D18, log 17); with none held it takes STACK_UNDERFLOW with its own address and changes
nothing else (the spec's decision D4, log 15). -/
def Obligations.ReturnPopsIntoPc : Prop :=
  ∀ s : State,
    (∀ (j : Nat) (hj : j < 16), s.sp.val = j + 1 → ∃ t, exec .ret s = .next t ∧
      t.pc = s.stack[j] ∧ t.sp.val = j ∧ SameBut [.sp, .pc] s t) ∧
    (s.sp.val = 0 → ∃ t, exec .ret s = .next t ∧ TakesFault .stackUnderflow s.pc.toNat s t)

/-- 95_test_vectors.md section 1 (S6): a call followed by a return comes back to the address after the
call, with the stack depth as before; of the stack's entries only the one the call wrote may differ. That
the entries above the live ones keep their value is the spec's decision D18 (log 17). -/
def Obligations.CallThenReturnComesBack : Prop :=
  ∀ (s : State) (nnn : Addr12), s.sp.val < 16 →
    ∃ t u, exec (.callNnn nnn) s = .next t ∧ exec .ret t = .next u ∧
      u.pc = s.pc + 2 ∧
      (∀ (j : Nat) (hj : j < 16), j ≠ s.sp.val → u.stack[j] = s.stack[j]) ∧
      SameBut [.pc, .stack] s u

/-! ### Load, arithmetic, logic, shift, random -/

/-- R150: load immediate. -/
def Obligations.LoadImmediateWritesRegister : Prop :=
  ∀ (s : State) (x : Reg) (kk : Byte),
    decodeWord (encodeXKK 0x6#4 x kk) = .ok (.ldVxKk x kk) ∧
    ∃ t, exec (.ldVxKk x kk) s = .next t ∧ t.reg x = kk ∧ RegsSameBut [x] s t ∧
      t.pc = s.pc + 2 ∧ SameBut [.v, .pc] s t

/-- R151: add immediate modulo 256; no flag, whatever the sum. -/
def Obligations.AddImmediateWrapsWithoutFlag : Prop :=
  ∀ (s : State) (x : Reg) (kk : Byte),
    decodeWord (encodeXKK 0x7#4 x kk) = .ok (.addVxKk x kk) ∧
    ∃ t, exec (.addVxKk x kk) s = .next t ∧
      (t.reg x).toNat = ((s.reg x).toNat + kk.toNat) % 256 ∧ RegsSameBut [x] s t ∧
      t.pc = s.pc + 2 ∧ SameBut [.v, .pc] s t

/-- R152: copy. -/
def Obligations.CopyRegisterWritesDestination : Prop :=
  ∀ (s : State) (x y : Reg),
    decodeWord (encodeXYN 0x8#4 x y 0x0#4) = .ok (.ldVxVy x y) ∧
    ∃ t, exec (.ldVxVy x y) s = .next t ∧ t.reg x = s.reg y ∧ RegsSameBut [x] s t ∧
      t.pc = s.pc + 2 ∧ SameBut [.v, .pc] s t

/-- 42_alu.md section 3: or, and, exclusive or, bit by bit; `VF` is not written unless it is the
destination (the spec's decision D8, log 26). -/
def Obligations.LogicOpsActBitByBit : Prop :=
  ∀ (s : State) (x y : Reg),
    (∃ t, exec (.orVxVy x y) s = .next t ∧
      (∀ k, k < 8 → (t.reg x).getLsbD k = ((s.reg x).getLsbD k || (s.reg y).getLsbD k)) ∧
      RegsSameBut [x] s t ∧ t.pc = s.pc + 2 ∧ SameBut [.v, .pc] s t) ∧
    (∃ t, exec (.andVxVy x y) s = .next t ∧
      (∀ k, k < 8 → (t.reg x).getLsbD k = ((s.reg x).getLsbD k && (s.reg y).getLsbD k)) ∧
      RegsSameBut [x] s t ∧ t.pc = s.pc + 2 ∧ SameBut [.v, .pc] s t) ∧
    (∃ t, exec (.xorVxVy x y) s = .next t ∧
      (∀ k, k < 8 → (t.reg x).getLsbD k = ((s.reg x).getLsbD k ^^ (s.reg y).getLsbD k)) ∧
      RegsSameBut [x] s t ∧ t.pc = s.pc + 2 ∧ SameBut [.v, .pc] s t)

/-- R156: the sum modulo 256 and the carry in `VF`; with `VF` as the destination the carry stands. -/
def Obligations.AddRegistersSetsCarry : Prop :=
  ∀ (s : State) (x y : Reg),
    decodeWord (encodeXYN 0x8#4 x y 0x4#4) = .ok (.addVxVy x y) ∧
    ∃ t, exec (.addVxVy x y) s = .next t ∧
      (x ≠ VF → (t.reg x).toNat = ((s.reg x).toNat + (s.reg y).toNat) % 256) ∧
      t.reg VF = (if 255 < (s.reg x).toNat + (s.reg y).toNat then 1 else 0) ∧
      RegsSameBut [x, VF] s t ∧ t.pc = s.pc + 2 ∧ SameBut [.v, .pc] s t

/-- R157: the difference modulo 256 and the flag 1 when there is no borrow; with `VF` as the
destination the flag stands. -/
def Obligations.SubtractSetsNoBorrow : Prop :=
  ∀ (s : State) (x y : Reg),
    decodeWord (encodeXYN 0x8#4 x y 0x5#4) = .ok (.subVxVy x y) ∧
    ∃ t, exec (.subVxVy x y) s = .next t ∧
      (x ≠ VF → ((t.reg x).toNat : Int) = ((s.reg x).toNat - (s.reg y).toNat : Int) % 256) ∧
      t.reg VF = (if (s.reg y).toNat ≤ (s.reg x).toNat then 1 else 0) ∧
      RegsSameBut [x, VF] s t ∧ t.pc = s.pc + 2 ∧ SameBut [.v, .pc] s t

/-- R159: the reverse difference modulo 256 and its flag. -/
def Obligations.ReverseSubtractSetsNoBorrow : Prop :=
  ∀ (s : State) (x y : Reg),
    decodeWord (encodeXYN 0x8#4 x y 0x7#4) = .ok (.subnVxVy x y) ∧
    ∃ t, exec (.subnVxVy x y) s = .next t ∧
      (x ≠ VF → ((t.reg x).toNat : Int) = ((s.reg y).toNat - (s.reg x).toNat : Int) % 256) ∧
      t.reg VF = (if (s.reg x).toNat ≤ (s.reg y).toNat then 1 else 0) ∧
      RegsSameBut [x, VF] s t ∧ t.pc = s.pc + 2 ∧ SameBut [.v, .pc] s t

/-- 42_alu.md sections 1 and 3: shift right by one. `VF` gets the bit shifted out, unless `VF` is the
destination: then the shifted value stands (the spec's decision D7, log 14). `Y` is not read (D8,
log 26). -/
def Obligations.ShiftRightMovesOneBit : Prop :=
  ∀ (s : State) (x y : Reg),
    ∃ t, exec (.shrVx x y) s = .next t ∧
      (t.reg x).toNat = (s.reg x).toNat / 2 ∧
      (x ≠ VF → (t.reg VF).toNat = (s.reg x).toNat % 2) ∧
      RegsSameBut [x, VF] s t ∧ t.pc = s.pc + 2 ∧ SameBut [.v, .pc] s t

/-- 42_alu.md sections 1 and 3: shift left by one, the same way; the flag is 0 or 1, not 0x80 (the
spec's decisions D7, D8, logs 14, 26). -/
def Obligations.ShiftLeftMovesOneBit : Prop :=
  ∀ (s : State) (x y : Reg),
    ∃ t, exec (.shlVx x y) s = .next t ∧
      (t.reg x).toNat = (s.reg x).toNat * 2 % 256 ∧
      (x ≠ VF → (t.reg VF).toNat = (s.reg x).toNat / 128) ∧
      RegsSameBut [x, VF] s t ∧ t.pc = s.pc + 2 ∧ SameBut [.v, .pc] s t

/-- 42_alu.md section 4: the random byte masked with `KK`. The byte is the input of the cycle, any
value `b`; where the schedule gave none it is the free value (log 2). -/
def Obligations.RandomByteIsMasked : Prop :=
  ∀ (s : State) (x : Reg) (kk : Byte),
    ∃ t, exec (.rndVxKk x kk) s = .next t ∧
      (∀ b, s.rnd = some b → t.reg x = b &&& kk) ∧
      (s.rnd = none → t.reg x = Config.randomByte s.draws &&& kk) ∧
      (∀ k, k < 8 → kk.getLsbD k = false → (t.reg x).getLsbD k = false) ∧
      RegsSameBut [x] s t ∧ t.pc = s.pc + 2 ∧ SameBut [.v, .pc, .draws] s t

/-- 10_state.md section 2: after an instruction that writes `VF` as a flag, `VF` is 0 or 1, but for
the two shifts with `VF` as their destination and a draw that takes its fault. -/
def Obligations.FlagIsZeroOrOneAfterFlagWriters : Prop :=
  ∀ (i : Instr) (s t : State), exec i s = .next t →
    (match i with
      | .addVxVy _ _ => True
      | .subVxVy _ _ => True
      | .subnVxVy _ _ => True
      | .shrVx x _ => x ≠ VF
      | .shlVx x _ => x ≠ VF
      | .drwVxVyN _ _ n => n = 0 ∨ s.I.toNat + n.toNat ≤ 4096
      | _ => False) →
    t.reg VF = 0 ∨ t.reg VF = 1

/-! ### Index register and memory transfer -/

/-- R180: load index. -/
def Obligations.LoadIndexWritesI : Prop :=
  ∀ (s : State) (nnn : Addr12),
    decodeWord (encodeNNN 0xA#4 nnn) = .ok (.ldINnn nnn) ∧
    ∃ t, exec (.ldINnn nnn) s = .next t ∧ t.I.toNat = nnn.toNat ∧ t.pc = s.pc + 2 ∧
      SameBut [.I, .pc] s t

/-- 43_index_memory.md section 2: add a register to the index, modulo 65536 (the spec's decision D9,
log 13), with no flag (D8, log 26); and point the index at the five-byte glyph of the low nibble (the
spec's decisions D11, D12, logs 8, 11). -/
def Obligations.IndexArithmeticAndGlyphs : Prop :=
  ∀ (s : State) (x : Reg),
    (∃ t, exec (.addIVx x) s = .next t ∧
      t.I.toNat = (s.I.toNat + (s.reg x).toNat) % 65536 ∧ t.pc = s.pc + 2 ∧
      SameBut [.I, .pc] s t) ∧
    (∃ t, exec (.ldFVx x) s = .next t ∧
      t.I.toNat = fontBase + 5 * ((s.reg x).toNat % 16) ∧ t.pc = s.pc + 2 ∧
      SameBut [.I, .pc] s t)

/-- 43_index_memory.md section 3: the three decimal digits at `I`, `I + 1`, `I + 2`, each a number
below 10, with `I` unchanged (the spec's decision D8, log 26); out of range the fault and not one byte
written (the spec's decision D4, log 15). -/
def Obligations.DecimalDigitsAreStored : Prop :=
  ∀ (s : State) (x : Reg),
    (s.I.toNat + 3 ≤ 4096 → ∃ t, exec (.ldBVx x) s = .next t ∧
      (∃ h d o : Nat, h < 10 ∧ d < 10 ∧ o < 10 ∧ (s.reg x).toNat = 100 * h + 10 * d + o ∧
        t.mem.read (s.effectiveAddress 0) = BitVec.ofNat 8 h ∧
        t.mem.read (s.effectiveAddress 1) = BitVec.ofNat 8 d ∧
        t.mem.read (s.effectiveAddress 2) = BitVec.ofNat 8 o) ∧
      (∀ a, a < s.effectiveAddress 0 ∨ s.effectiveAddress 2 < a → t.mem.read a = s.mem.read a) ∧
      t.pc = s.pc + 2 ∧ SameBut [.mem, .pc] s t) ∧
    (4096 < s.I.toNat + 3 → ∃ t, exec (.ldBVx x) s = .next t ∧
      TakesFault .memOutOfRange (max s.I.toNat 4096) s t)

/-- 43_index_memory.md section 3: `mem[I + i] = v[i]` for `i = 0..X`, `I` unchanged (the spec's
decision D8, log 26); out of range the fault and not one byte written (D4, log 15). -/
def Obligations.RegisterBlockIsStored : Prop :=
  ∀ (s : State) (x : Reg),
    (s.I.toNat + x.val + 1 ≤ 4096 → ∃ t, exec (.ldMemVx x) s = .next t ∧
      (∀ i : Reg, i ≤ x → t.mem.read (s.effectiveAddress i.val) = s.reg i) ∧
      (∀ a, a < s.effectiveAddress 0 ∨ s.effectiveAddress x.val < a →
        t.mem.read a = s.mem.read a) ∧
      t.pc = s.pc + 2 ∧ SameBut [.mem, .pc] s t) ∧
    (4096 < s.I.toNat + x.val + 1 → ∃ t, exec (.ldMemVx x) s = .next t ∧
      TakesFault .memOutOfRange (max s.I.toNat 4096) s t)

/-- 43_index_memory.md section 3: `v[i] = mem[I + i]` for `i = 0..X`, the registers above and memory
unchanged, and `I` unchanged (the spec's decision D8, log 26); out of range the fault and not one
register written (the spec's decision D4, log 15). -/
def Obligations.RegisterBlockIsLoaded : Prop :=
  ∀ (s : State) (x : Reg),
    (s.I.toNat + x.val + 1 ≤ 4096 → ∃ t, exec (.ldVxMem x) s = .next t ∧
      (∀ i : Reg, t.reg i = if i ≤ x then s.mem.read (s.effectiveAddress i.val) else s.reg i) ∧
      t.pc = s.pc + 2 ∧ SameBut [.v, .pc] s t) ∧
    (4096 < s.I.toNat + x.val + 1 → ∃ t, exec (.ldVxMem x) s = .next t ∧
      TakesFault .memOutOfRange (max s.I.toNat 4096) s t)

/-- 43_index_memory.md section 3: what a block store wrote, a block load at the same `I` reads back,
whatever the registers held in between. That neither moves `I`, so that the load reads where the store
wrote, is the spec's decision D8 (log 26). -/
def Obligations.StoredBlockLoadsBack : Prop :=
  ∀ (s : State) (x : Reg) (w : Vector Byte 16), s.I.toNat + x.val + 1 ≤ 4096 →
    ∃ t u, exec (.ldMemVx x) s = .next t ∧ exec (.ldVxMem x) { t with v := w } = .next u ∧
      (∀ i : Reg, u.reg i = if i ≤ x then s.reg i else w[i.val]) ∧
      u.I = s.I ∧ ∀ a, u.mem.read a = t.mem.read a

/-- 20_memory.md section 7 (fetch coherence): a block store over the next instruction word is what the
next fetch reads. The spec's decision D26 (log 28). -/
def Obligations.StoreIsSeenByNextFetch : Prop :=
  ∀ (s : State) (x : Reg), 1 ≤ x.val → s.I.toNat + x.val + 1 ≤ 4096 → s.I = s.pc + 2 →
    ∃ t, exec (.ldMemVx x) s = .next t ∧ t.fetchWord = s.reg 0 ++ s.reg 1

/-- The canonical form of memory (log 18): two memories in it that read alike at every address are the
same data. -/
def Obligations.MemoriesThatReadAlikeAreEqual : Prop :=
  ∀ m n : Memory, m.wf → n.wf → (∀ a, m.read a = n.read a) → m = n

/-! ### Display -/

/-- R200: every pixel is cleared and dirty set, even if nothing was set; `VF` is not written. -/
def Obligations.ClearScreenClearsEveryPixel : Prop :=
  decodeWord 0x00E0#16 = .ok .cls ∧
  ∀ s : State, ∃ t, exec .cls s = .next t ∧
    (∀ px py, px < 64 → py < 32 → t.fb.pixel px py = false) ∧ t.dirty = true ∧
    t.pc = s.pc + 2 ∧ SameBut [.fb, .dirty, .pc] s t

/-- 44_display.md sections 1 and 2: after a draw a pixel is toggled exactly when a 1 bit of the sprite
covers it, coordinates wrapping per pixel; `VF` is 1 exactly when some pixel so covered was set before;
dirty is set; for `N = 0` nothing is read and nothing toggled (the spec's decision D24, log 28). The
bit order is the spec's decision D14 (log 10); that `I` is unchanged is its decision D8 (log 26). -/
def Obligations.DrawTogglesCoveredPixels : Prop :=
  ∀ (s : State) (x y : Reg) (n : Nibble), n = 0 ∨ s.I.toNat + n.toNat ≤ 4096 →
    ∃ t, exec (.drwVxVyN x y n) s = .next t ∧
      (∀ px py, px < 64 → py < 32 →
        (t.fb.pixel px py ≠ s.fb.pixel px py ↔
          SpriteCovers s.mem (s.effectiveAddress 0) n.toNat (s.reg x).toNat (s.reg y).toNat px py)) ∧
      (t.reg VF = 1 ↔ ∃ px py, s.fb.pixel px py = true ∧
        SpriteCovers s.mem (s.effectiveAddress 0) n.toNat (s.reg x).toNat (s.reg y).toNat px py) ∧
      (t.reg VF = 0 ∨ t.reg VF = 1) ∧ RegsSameBut [VF] s t ∧
      t.dirty = true ∧ t.pc = s.pc + 2 ∧ SameBut [.fb, .dirty, .v, .pc] s t

/-- 44_display.md section 2: a sprite that would run past the end of memory draws nothing and takes
the fault (the spec's decision D4, log 15). -/
def Obligations.DrawPastMemoryTakesFault : Prop :=
  ∀ (s : State) (x y : Reg) (n : Nibble), n ≠ 0 → 4096 < s.I.toNat + n.toNat →
    ∃ t, exec (.drwVxVyN x y n) s = .next t ∧ TakesFault .memOutOfRange (max s.I.toNat 4096) s t

/-- 95_test_vectors.md section 1 (S5): the same sprite drawn twice at the same position leaves the
display as it was, and the second draw collides exactly when the first one lit a pixel. That the first
draw leaves `I` is the spec's decision D8 (log 26). -/
def Obligations.DrawTwiceRestoresDisplay : Prop :=
  ∀ (s : State) (x y : Reg) (n : Nibble), n = 0 ∨ s.I.toNat + n.toNat ≤ 4096 →
    ∃ t u, exec (.drwVxVyN x y n) s = .next t ∧
      exec (.drwVxVyN x y n) { t with v := s.v } = .next u ∧ u.fb = s.fb ∧
      (u.reg VF = 1 ↔ ∃ px py, px < 64 ∧ py < 32 ∧
        s.fb.pixel px py = false ∧ t.fb.pixel px py = true)

/-! ### Keypad and timers -/

/-- 45_keypad_timers.md section 1: the skips on a key test the level of the key that the low nibble of
`v[X]` selects (the spec's decision D13, log 12); exactly one of the two skips. -/
def Obligations.KeySkipsTestTheSelectedKey : Prop :=
  ∀ (s : State) (x : Reg),
    (∃ t, exec (.skpVx x) s = .next t ∧
      t.pc = (if s.key.getLsbD ((s.reg x).toNat % 16) = true then s.pc + 4 else s.pc + 2) ∧
      SameBut [.pc] s t) ∧
    (∃ t, exec (.sknpVx x) s = .next t ∧
      t.pc = (if s.key.getLsbD ((s.reg x).toNat % 16) = true then s.pc + 2 else s.pc + 4) ∧
      SameBut [.pc] s t)

/-- R222: with no key down nothing changes, `pc` included; else the lowest key down is read. -/
def Obligations.KeyWaitTakesLowestKey : Prop :=
  ∀ (s : State) (x : Reg),
    decodeWord (encodeXKK 0xF#4 x 0x0A#8) = .ok (.ldVxK x) ∧
    ((∀ j, j < 16 → s.key.getLsbD j = false) →
      ∃ t, exec (.ldVxK x) s = .next t ∧ SameBut [] s t) ∧
    (∀ j, j < 16 → s.key.getLsbD j = true → (∀ k, k < j → s.key.getLsbD k = false) →
      ∃ t, exec (.ldVxK x) s = .next t ∧ (t.reg x).toNat = j ∧ RegsSameBut [x] s t ∧
        t.pc = s.pc + 2 ∧ SameBut [.v, .pc] s t)

/-- R223, R224: read and set the delay timer; no event. -/
def Obligations.DelayTimerIsReadAndSet : Prop :=
  ∀ (s : State) (x : Reg),
    decodeWord (encodeXKK 0xF#4 x 0x07#8) = .ok (.ldVxDt x) ∧
    decodeWord (encodeXKK 0xF#4 x 0x15#8) = .ok (.ldDtVx x) ∧
    (∃ t, exec (.ldVxDt x) s = .next t ∧ t.reg x = s.DT ∧ RegsSameBut [x] s t ∧
      t.pc = s.pc + 2 ∧ SameBut [.v, .pc] s t) ∧
    (∃ t, exec (.ldDtVx x) s = .next t ∧ t.DT = s.reg x ∧ t.pc = s.pc + 2 ∧
      SameBut [.DT, .pc] s t)

/-- 45_keypad_timers.md section 2: set the sound timer and emit the edge of the sound level. The stop
on writing 0 is the spec's decision D21 (log 27). -/
def Obligations.SoundTimerIsSetWithItsEdge : Prop :=
  ∀ (s : State) (x : Reg), ∃ t, exec (.ldStVx x) s = .next t ∧ t.ST = s.reg x ∧
    t.events = s.events ++
      (if s.ST = 0 ∧ s.reg x ≠ 0 then [.soundStart]
       else if s.ST ≠ 0 ∧ s.reg x = 0 then [.soundStop] else []) ∧
    t.pc = s.pc + 2 ∧ SameBut [.ST, .pc, .events] s t

/-! ### The other agents -/

/-- 60_exceptions.md section 5: a tick counts each timer down to 0 and no further, and emits the stop
when the sound timer was exactly 1, halted or not (the spec's decision D6, log 16); nothing else of the
spec's state changes. The schedule is the model's (log 1). -/
def Obligations.TickCountsTimersDown : Prop :=
  ∀ (s : State) (rest : List Transition), s.schedule = .tick :: rest →
    ∃ t, step s = .next t ∧ t.DT.toNat = s.DT.toNat - 1 ∧ t.ST.toNat = s.ST.toNat - 1 ∧
      t.events = (if s.ST = 1 then [.soundStop] else []) ∧ t.schedule = rest ∧
      SameBut [.DT, .ST, .schedule, .rnd, .events, .reply] s t

/-- 60_exceptions.md section 6: a key write replaces all sixteen flags at once and nothing else; a
frame acknowledge returns the whole display with its dimensions and clears dirty and nothing else.
Both act halted or not and emit nothing. The schedule and the reply are the model's (logs 1, 3). -/
def Obligations.KeypadAndRendererActAlone : Prop :=
  (∀ (s : State) (k : BitVec 16) (rest : List Transition), s.schedule = .keyWrite k :: rest →
    ∃ t, step s = .next t ∧ (∀ j, j < 16 → t.key.getLsbD j = k.getLsbD j) ∧ t.events = [] ∧
      t.schedule = rest ∧ SameBut [.key, .schedule, .rnd, .events, .reply] s t) ∧
  (∀ (s : State) (rest : List Transition), s.schedule = .frameAck :: rest →
    ∃ t, step s = .next t ∧ t.reply = .frame 64 32 s.fb ∧ t.dirty = false ∧ t.events = [] ∧
      t.schedule = rest ∧ SameBut [.dirty, .schedule, .rnd, .events, .reply] s t)

/-- 70_reset_and_hazards.md section 1: before the first cycle a load that fits writes its bytes and
nothing else; one that does not is answered with ResourceFault and leaves memory untouched. That any
offset that fits is accepted is the spec's decision D27 (log 28). -/
def Obligations.LoadWritesImageOrRefuses : Prop :=
  ∀ (s : State) (bytes : List Byte) (offset : Nat) (rest : List Transition),
    s.started = false → s.schedule = .load bytes offset :: rest →
    ∃ t, step s = .next t ∧ t.schedule = rest ∧ t.events = [] ∧
      (offset + bytes.length ≤ 4096 → t.reply = .loadAccepted ∧
        (∀ k b, bytes[k]? = some b → t.mem.read (offset + k) = b) ∧
        (∀ a, a < offset ∨ offset + bytes.length ≤ a → t.mem.read a = s.mem.read a) ∧
        SameBut [.mem, .schedule, .rnd, .events, .reply] s t) ∧
      (4096 < offset + bytes.length → t.reply = .resourceFault ∧
        SameBut [.schedule, .rnd, .events, .reply] s t)

/-- 70_reset_and_hazards.md section 1: a reset from any state gives the reset state and no event; what
the environment still has to do stays (log 30). -/
def Obligations.ResetGivesResetState : Prop :=
  ∀ (s : State) (rest : List Transition), s.schedule = .reset :: rest →
    ∃ t, step s = .next t ∧ t.schedule = rest ∧ t.draws = s.draws ∧ t.events = [] ∧
      SameBut [.schedule, .draws] State.reset t

/-- 10_state.md section 12: the values after reset. The font's bytes and its base are parameters
(logs 8, 9): the statement names them as such. -/
def Obligations.ResetStateHoldsResetValues : Prop :=
  (∀ i, i < 80 → State.reset.mem.read (fontBase + i) = font.getD i 0) ∧
  (∀ a, a < fontBase ∨ fontBase + 80 ≤ a → State.reset.mem.read a = 0) ∧
  (∀ r, State.reset.reg r = 0) ∧ State.reset.I = 0 ∧ State.reset.pc.toNat = 0x200 ∧
  State.reset.sp.val = 0 ∧ (∀ (j : Nat) (hj : j < 16), State.reset.stack[j] = 0) ∧
  State.reset.DT = 0 ∧ State.reset.ST = 0 ∧ (∀ px py, State.reset.fb.pixel px py = false) ∧
  State.reset.dirty = false ∧ (∀ j, State.reset.key.getLsbD j = false) ∧
  State.reset.halted = false ∧ State.reset.cause = 0

/-! ### Rules of the whole machine -/

/-- 10_state.md section 13 and 20_memory.md section 6: what an instruction cannot change, whatever it
is: memory but by `FX33`, `FX55`; the display and dirty but by `00E0`, `DXYN`; `I` but by `ANNN`,
`FX1E`, `FX29`; the stack but by `2NNN`, `00EE`; `DT` but by `FX15`; `ST` but by `FX18`; the keypad
never. The last four clauses are of the model's own fields. -/
def Obligations.InstructionsWriteOnlyTheirState : Prop :=
  ∀ (i : Instr) (s t : State), exec i s = .next t →
    t.key = s.key ∧
    ((∀ x, i ≠ .ldBVx x) → (∀ x, i ≠ .ldMemVx x) → t.mem = s.mem) ∧
    (i ≠ .cls → (∀ x y n, i ≠ .drwVxVyN x y n) → t.fb = s.fb ∧ t.dirty = s.dirty) ∧
    ((∀ nnn, i ≠ .ldINnn nnn) → (∀ x, i ≠ .addIVx x) → (∀ x, i ≠ .ldFVx x) → t.I = s.I) ∧
    (i ≠ .ret → (∀ nnn, i ≠ .callNnn nnn) → t.sp = s.sp ∧ t.stack = s.stack) ∧
    ((∀ x, i ≠ .ldDtVx x) → t.DT = s.DT) ∧
    ((∀ x, i ≠ .ldStVx x) → t.ST = s.ST) ∧
    ((∀ x kk, i ≠ .rndVxKk x kk) → t.draws = s.draws) ∧
    t.started = s.started ∧ t.schedule = s.schedule ∧ t.rnd = s.rnd ∧ t.reply = s.reply

/-- 10_state.md sections 7 and 9, 60_exceptions.md section 2: only a reset clears the halt latch, and
while it is set the registers, `I`, `pc`, the stack, the display and the cause stay as they are; only
a frame acknowledge and a reset clear dirty. -/
def Obligations.HaltLatchHoldsUntilReset : Prop :=
  ∀ s t : State, step s = .next t → s.resetIsNext = false →
    (s.halted = true → t.halted = true ∧ t.cause = s.cause ∧ (∀ r, t.reg r = s.reg r) ∧
      t.I = s.I ∧ t.pc = s.pc ∧ t.sp = s.sp ∧ t.stack = s.stack ∧ t.fb = s.fb) ∧
    (s.dirty = true → s.schedule.head? ≠ some .frameAck → t.dirty = true)

/-- 10_state.md section 13: the transitions of the timer clock, the input adapter, the renderer and
the loader leave the interpreter's state alone. -/
def Obligations.OtherAgentsLeaveInterpreterAlone : Prop :=
  ∀ s t : State, step s = .next t → s.cycleIsNext = false → s.resetIsNext = false →
    (∀ r, t.reg r = s.reg r) ∧ t.I = s.I ∧ t.pc = s.pc ∧ t.sp = s.sp ∧ t.stack = s.stack ∧
    t.fb = s.fb ∧ t.halted = s.halted ∧ t.cause = s.cause ∧ t.started = s.started ∧
    ((∀ bytes offset, s.schedule.head? ≠ some (.load bytes offset)) → t.mem = s.mem)

/-- 40_cycle.md section 2: only `CXKK` reads the random byte; the result of any other instruction
does not depend on it. The two fields are the model's (log 2). -/
def Obligations.OnlyRandomReadsTheRandomByte : Prop :=
  ∀ (i : Instr) (s t : State) (b : Option Byte) (d : Nat), (∀ x kk, i ≠ .rndVxKk x kk) →
    exec i s = .next t →
    exec i { s with rnd := b, draws := d } = .next { t with rnd := b, draws := d }

/-- 60_exceptions.md section 5: whatever the transition, but a reset, the sound events are the edges
of the level `ST != 0`. The spec's decision D21 (log 27). -/
def Obligations.SoundEventsAreLevelEdges : Prop :=
  ∀ s t : State, step s = .next t → s.resetIsNext = false →
    (.soundStart ∈ t.events ↔ s.soundOn = false ∧ t.soundOn = true) ∧
    (.soundStop ∈ t.events ↔ s.soundOn = true ∧ t.soundOn = false)

/-- 40_cycle.md section 2: a transition emits at most one event. -/
def Obligations.TransitionEmitsAtMostOneEvent : Prop :=
  ∀ s t : State, step s = .next t → t.events.length ≤ 1

/-- The invariant of `Inv` (10_state.md R26, R28, R35; the canonical form of memory, log 18) is kept
by every step from every state that meets it. -/
def Obligations.EveryStepKeepsTheInvariant : Prop :=
  ∀ s t : State, Inv s → step s = .next t → Inv t

/-- The invariant holds at reset. -/
def Obligations.ResetMeetsTheInvariant : Prop := Inv State.reset
end

