-- ==== Sys2Proof/Laws/Decode.lean ====
section
/-! SUPPORT. The fields of an encoded word are the fields it was made from: each word as a number,
then each field by division. -/

namespace Sys2Proof

@[simp] theorem regOfNibble_nibbleOfReg (x : Reg) : regOfNibble (nibbleOfReg x) = x := rfl
@[simp] theorem nibbleOfReg_regOfNibble (n : Nibble) : nibbleOfReg (regOfNibble n) = n := rfl

/-- A concatenation as a number: the high part is shifted up by the width of the low part. -/
theorem toNat_append_add {a b : Nat} (x : BitVec a) (y : BitVec b) :
    (x ++ y).toNat = x.toNat * 2 ^ b + y.toNat := by
  rw [BitVec.toNat_append, ← Nat.shiftLeft_add_eq_or_of_lt y.isLt, Nat.shiftLeft_eq]

theorem toNat_encodeNNN (m : Nibble) (nnn : Addr12) :
    (encodeNNN m nnn).toNat = m.toNat * 4096 + nnn.toNat := toNat_append_add m nnn

theorem toNat_encodeXKK (m : Nibble) (x : Reg) (kk : Byte) :
    (encodeXKK m x kk).toNat = (m.toNat * 16 + x.val) * 256 + kk.toNat := by
  refine (toNat_append_add (m ++ nibbleOfReg x) kk).trans ?_
  rw [toNat_append_add]; rfl

theorem toNat_encodeXYN (m : Nibble) (x y : Reg) (n : Nibble) :
    (encodeXYN m x y n).toNat = ((m.toNat * 16 + x.val) * 16 + y.val) * 16 + n.toNat := by
  refine (toNat_append_add (m ++ nibbleOfReg x ++ nibbleOfReg y) n).trans ?_
  rw [toNat_append_add, toNat_append_add]; rfl

/-! ### Fields as numbers -/

theorem toNat_fieldMajor (op : Word) : (fieldMajor op).toNat = op.toNat / 4096 := by
  have := op.isLt
  simp only [fieldMajor, BitVec.extractLsb'_toNat, Nat.shiftRight_eq_div_pow]; omega

theorem toNat_nibbleX (op : Word) : (nibbleX op).toNat = op.toNat / 256 % 16 := by
  simp only [nibbleX, BitVec.extractLsb'_toNat, Nat.shiftRight_eq_div_pow]

theorem toNat_nibbleY (op : Word) : (nibbleY op).toNat = op.toNat / 16 % 16 := by
  simp only [nibbleY, BitVec.extractLsb'_toNat, Nat.shiftRight_eq_div_pow]

theorem toNat_fieldN (op : Word) : (fieldN op).toNat = op.toNat % 16 := by
  simp [fieldN, BitVec.extractLsb'_toNat]

theorem toNat_fieldKK (op : Word) : (fieldKK op).toNat = op.toNat % 256 := by
  simp [fieldKK, BitVec.extractLsb'_toNat]

theorem toNat_fieldNNN (op : Word) : (fieldNNN op).toNat = op.toNat % 4096 := by
  simp [fieldNNN, BitVec.extractLsb'_toNat]

theorem val_fieldX (op : Word) : (fieldX op).val = op.toNat / 256 % 16 := toNat_nibbleX op
theorem val_fieldY (op : Word) : (fieldY op).val = op.toNat / 16 % 16 := toNat_nibbleY op

/-! ### Format NNN -/

@[simp] theorem fieldMajor_encodeNNN (m : Nibble) (nnn : Addr12) :
    fieldMajor (encodeNNN m nnn) = m := by
  have := nnn.isLt
  apply BitVec.eq_of_toNat_eq; rw [toNat_fieldMajor, toNat_encodeNNN]; omega

@[simp] theorem fieldNNN_encodeNNN (m : Nibble) (nnn : Addr12) :
    fieldNNN (encodeNNN m nnn) = nnn := by
  have := nnn.isLt
  apply BitVec.eq_of_toNat_eq; rw [toNat_fieldNNN, toNat_encodeNNN]; omega

/-! ### Format XKK -/

@[simp] theorem fieldMajor_encodeXKK (m : Nibble) (x : Reg) (kk : Byte) :
    fieldMajor (encodeXKK m x kk) = m := by
  have := kk.isLt
  apply BitVec.eq_of_toNat_eq; rw [toNat_fieldMajor, toNat_encodeXKK]; omega

@[simp] theorem fieldX_encodeXKK (m : Nibble) (x : Reg) (kk : Byte) :
    fieldX (encodeXKK m x kk) = x := by
  have := kk.isLt
  apply Fin.ext; rw [val_fieldX, toNat_encodeXKK]; omega

@[simp] theorem fieldKK_encodeXKK (m : Nibble) (x : Reg) (kk : Byte) :
    fieldKK (encodeXKK m x kk) = kk := by
  have := kk.isLt
  apply BitVec.eq_of_toNat_eq; rw [toNat_fieldKK, toNat_encodeXKK]; omega

@[simp] theorem nibbleY_encodeXKK (m : Nibble) (x : Reg) (kk : Byte) :
    nibbleY (encodeXKK m x kk) = kk.extractLsb' 4 4 := by
  have := kk.isLt
  apply BitVec.eq_of_toNat_eq
  rw [toNat_nibbleY, toNat_encodeXKK, BitVec.extractLsb'_toNat, Nat.shiftRight_eq_div_pow]; omega

@[simp] theorem fieldN_encodeXKK (m : Nibble) (x : Reg) (kk : Byte) :
    fieldN (encodeXKK m x kk) = kk.extractLsb' 0 4 := by
  have := kk.isLt
  apply BitVec.eq_of_toNat_eq
  rw [toNat_fieldN, toNat_encodeXKK, BitVec.extractLsb'_toNat, Nat.shiftRight_eq_div_pow]; omega

/-! ### Formats XY and XYN -/

@[simp] theorem fieldMajor_encodeXYN (m : Nibble) (x y : Reg) (n : Nibble) :
    fieldMajor (encodeXYN m x y n) = m := by
  have := n.isLt
  apply BitVec.eq_of_toNat_eq; rw [toNat_fieldMajor, toNat_encodeXYN]; omega

@[simp] theorem fieldX_encodeXYN (m : Nibble) (x y : Reg) (n : Nibble) :
    fieldX (encodeXYN m x y n) = x := by
  have := n.isLt
  apply Fin.ext; rw [val_fieldX, toNat_encodeXYN]; omega

@[simp] theorem fieldY_encodeXYN (m : Nibble) (x y : Reg) (n : Nibble) :
    fieldY (encodeXYN m x y n) = y := by
  have := n.isLt
  apply Fin.ext; rw [val_fieldY, toNat_encodeXYN]; omega

@[simp] theorem fieldN_encodeXYN (m : Nibble) (x y : Reg) (n : Nibble) :
    fieldN (encodeXYN m x y n) = n := by
  have := n.isLt
  apply BitVec.eq_of_toNat_eq; rw [toNat_fieldN, toNat_encodeXYN]; omega

/-! ### The bytes of a word -/

@[simp] theorem wordOfBytes_bytes (w : Word) :
    wordOfBytes (w.extractLsb' 8 8) (w.extractLsb' 0 8) = w := by
  have := w.isLt
  apply BitVec.eq_of_toNat_eq
  refine (toNat_append_add _ _).trans ?_
  rw [BitVec.extractLsb'_toNat, BitVec.extractLsb'_toNat, Nat.shiftRight_eq_div_pow,
    Nat.shiftRight_eq_div_pow]
  omega

end Sys2Proof
end

