-- ==== Sys2Proof/Laws/Memory.lean ====
section
/-! SUPPORT. The laws of memory: what an address reads after a write, and that every operation keeps
the canonical form. -/

namespace Sys2Proof.Machine

/-! ### Reads after writes -/

theorem Memory.read_putCell (m : Memory) (a x : Nat) (b : Byte) :
    (m.putCell a b).read x = if x = a then b else m.read x := by
  induction m with
  | nil => by_cases h : x = a <;> simp [Memory.putCell, Memory.read, h, Ne.symm]
  | cons cell rest ih =>
    obtain ⟨k, c⟩ := cell
    simp only [Memory.putCell]
    split
    · by_cases h : x = a
      · simp [Memory.read, h]
      · simp [Memory.read, h, Ne.symm h]
    · split
      · rename_i hk; subst hk
        by_cases h : x = a
        · simp [Memory.read, h]
        · simp [Memory.read, h, Ne.symm h]
      · simp only [Memory.read, ih]
        by_cases hk : k = x <;> by_cases h : x = a <;> simp_all

theorem Memory.read_dropCell (m : Memory) (a x : Nat) :
    (m.dropCell a).read x = if x = a then resetByte a else m.read x := by
  induction m with
  | nil => by_cases h : x = a <;> simp [Memory.dropCell, Memory.read, h]
  | cons cell rest ih =>
    obtain ⟨k, c⟩ := cell
    simp only [Memory.dropCell] at ih
    by_cases hk : k = a
    · subst hk
      by_cases h : x = k
      · simpa [Memory.dropCell, Memory.read, h] using ih
      · simpa [Memory.dropCell, Memory.read, h, Ne.symm h] using ih
    · by_cases hx : k = x
      · subst hx; simp [Memory.dropCell, Memory.read, hk]
      · simpa [Memory.dropCell, Memory.read, hk, hx] using ih

/-- A write changes the byte at its address and no other. -/
@[simp] theorem Memory.read_write (m : Memory) (a x : Nat) (b : Byte) :
    (m.write a b).read x = if x = a then b else m.read x := by
  unfold Memory.write
  split
  · rename_i h; rw [Memory.read_dropCell, h]
  · exact Memory.read_putCell m a x b

/-- A multi-byte write changes the bytes of its range and no other. -/
theorem Memory.read_writeBytes (m : Memory) (a x : Nat) (bs : List Byte) :
    (m.writeBytes a bs).read x =
      if a ≤ x ∧ x < a + bs.length then bs.getD (x - a) 0 else m.read x := by
  induction bs generalizing m a with
  | nil => simp [Memory.writeBytes]
  | cons b bs ih =>
    rw [Memory.writeBytes, ih, Memory.read_write]
    rcases Nat.lt_trichotomy x a with h | h | h
    · rw [if_neg (by omega), if_neg (by omega), if_neg (by omega)]
    · subst h; simp
    · obtain ⟨d, rfl⟩ : ∃ d, x = a + 1 + d := ⟨x - (a + 1), by omega⟩
      have e1 : a + 1 + d - (a + 1) = d := by omega
      have e2 : a + 1 + d - a = d + 1 := by omega
      by_cases hd : d < bs.length
      · rw [if_pos (by omega), if_pos (by simp; omega), e1, e2, List.getD_cons_succ]
      · rw [if_neg (by omega), if_neg (by omega), if_neg (by simp; omega)]

/-- Outside the stored range every address reads as before. -/
theorem Memory.read_writeBytes_outside (m : Memory) (a x : Nat) (bs : List Byte)
    (h : ¬(a ≤ x ∧ x < a + bs.length)) : (m.writeBytes a bs).read x = m.read x := by
  rw [Memory.read_writeBytes, if_neg h]

@[simp] theorem Memory.readBytes_length (m : Memory) (a n : Nat) :
    (m.readBytes a n).length = n := by simp [Memory.readBytes]

theorem Memory.readBytes_getD (m : Memory) (a n k : Nat) (d : Byte) (h : k < n) :
    (m.readBytes a n).getD k d = m.read (a + k) := by
  simp [Memory.readBytes, h]

/-! ### The canonical form -/

/-- A cell of `putCell` is the new one or an old one. -/
theorem Memory.mem_putCell {m : Memory} {a : Nat} {b : Byte} {p : Host.Cell}
    (h : p ∈ m.putCell a b) : p = (a, b) ∨ p ∈ m := by
  induction m with
  | nil => simpa [Memory.putCell] using h
  | cons cell rest ih =>
    obtain ⟨k, c⟩ := cell
    simp only [Memory.putCell] at h
    split at h
    · simpa using h
    · split at h
      · rcases List.mem_cons.mp h with h | h
        · exact .inl h
        · exact .inr (List.mem_cons_of_mem _ h)
      · rcases List.mem_cons.mp h with h | h
        · exact .inr (by simp [h])
        · rcases ih h with h | h
          · exact .inl h
          · exact .inr (List.mem_cons_of_mem _ h)

theorem Memory.pairwise_putCell {m : Memory} (a : Nat) (b : Byte)
    (h : m.Pairwise (fun p q => p.1 < q.1)) :
    (m.putCell a b).Pairwise (fun p q => p.1 < q.1) := by
  induction m with
  | nil => simp [Memory.putCell]
  | cons cell rest ih =>
    obtain ⟨k, c⟩ := cell
    obtain ⟨hk, hrest⟩ := List.pairwise_cons.mp h
    simp only [Memory.putCell]
    split
    · rename_i hak
      refine List.pairwise_cons.mpr ⟨fun q hq => ?_, h⟩
      rcases List.mem_cons.mp hq with rfl | hq
      · exact hak
      · exact Nat.lt_trans hak (hk q hq)
    · split
      · rename_i hak; subst hak
        exact List.pairwise_cons.mpr ⟨hk, hrest⟩
      · refine List.pairwise_cons.mpr ⟨fun q hq => ?_, ih hrest⟩
        rcases Memory.mem_putCell hq with rfl | hq
        · exact by simp only; omega
        · exact hk q hq

/-- Every write keeps the canonical form. -/
theorem Memory.wf_write {m : Memory} {a : Nat} (b : Byte) (h : m.wf) (ha : a < 4096) :
    (m.write a b).wf := by
  unfold Memory.write
  split
  · exact ⟨h.1.filter _, fun p hp => h.2 p (List.mem_filter.mp hp).1⟩
  · rename_i hb
    refine ⟨Memory.pairwise_putCell a b h.1, fun p hp => ?_⟩
    rcases Memory.mem_putCell hp with rfl | hp
    · exact ⟨ha, hb⟩
    · exact h.2 p hp

/-- Every multi-byte write inside memory keeps the canonical form. -/
theorem Memory.wf_writeBytes {m : Memory} {a : Nat} (bs : List Byte) (h : m.wf)
    (ha : a + bs.length ≤ 4096) : (m.writeBytes a bs).wf := by
  induction bs generalizing m a with
  | nil => exact h
  | cons b bs ih =>
    simp only [List.length_cons] at ha
    exact ih (Memory.wf_write b h (by omega)) (by omega)

/-- Reset memory is in canonical form. -/
theorem Memory.wf_reset : State.reset.mem.wf := by decide

/-! ### The range checks (spec/20_memory.md R64, R65) -/

/-- `MEM_SIZE` as the number it is. -/
theorem memSize_eq : Config.memSize = 4096 := rfl

theorem memRead_inside {s : State} {a n : Nat} (h : a + n ≤ 4096) :
    memRead s a n = .ok (s.mem.readBytes a n) := if_pos h

theorem memRead_outside {s : State} {a n : Nat} (h : ¬ a + n ≤ 4096) :
    memRead s a n = .error (.memOutOfRange, max a 4096) := if_neg h

theorem memWrite_inside {s : State} {a : Nat} {bs : List Byte}
    (h : a + bs.length ≤ 4096) :
    memWrite s a bs = .ok { s with mem := s.mem.writeBytes a bs } := if_pos h

theorem memWrite_outside {s : State} {a : Nat} {bs : List Byte}
    (h : ¬ a + bs.length ≤ 4096) :
    memWrite s a bs = .error (.memOutOfRange, max a 4096) := if_neg h

end Sys2Proof.Machine
end

