-- ==== Sys2Proof/Laws/State.lean ====
section
/-! SUPPORT. One lemma per field per named update of the state, each true by `rfl`, so that no later
proof unfolds a record update. -/

namespace Sys2Proof.Machine

/-! ### setReg -/

@[simp] theorem State.setReg_mem (s : State) (x : Reg) (b : Byte) : (s.setReg x b).mem = s.mem := rfl
@[simp] theorem State.setReg_v (s : State) (x : Reg) (b : Byte) : (s.setReg x b).v = s.v.set x.val b := rfl
@[simp] theorem State.setReg_I (s : State) (x : Reg) (b : Byte) : (s.setReg x b).I = s.I := rfl
@[simp] theorem State.setReg_pc (s : State) (x : Reg) (b : Byte) : (s.setReg x b).pc = s.pc := rfl
@[simp] theorem State.setReg_sp (s : State) (x : Reg) (b : Byte) : (s.setReg x b).sp = s.sp := rfl
@[simp] theorem State.setReg_stack (s : State) (x : Reg) (b : Byte) : (s.setReg x b).stack = s.stack := rfl
@[simp] theorem State.setReg_DT (s : State) (x : Reg) (b : Byte) : (s.setReg x b).DT = s.DT := rfl
@[simp] theorem State.setReg_ST (s : State) (x : Reg) (b : Byte) : (s.setReg x b).ST = s.ST := rfl
@[simp] theorem State.setReg_fb (s : State) (x : Reg) (b : Byte) : (s.setReg x b).fb = s.fb := rfl
@[simp] theorem State.setReg_dirty (s : State) (x : Reg) (b : Byte) : (s.setReg x b).dirty = s.dirty := rfl
@[simp] theorem State.setReg_key (s : State) (x : Reg) (b : Byte) : (s.setReg x b).key = s.key := rfl
@[simp] theorem State.setReg_halted (s : State) (x : Reg) (b : Byte) : (s.setReg x b).halted = s.halted := rfl
@[simp] theorem State.setReg_cause (s : State) (x : Reg) (b : Byte) : (s.setReg x b).cause = s.cause := rfl
@[simp] theorem State.setReg_started (s : State) (x : Reg) (b : Byte) : (s.setReg x b).started = s.started := rfl
@[simp] theorem State.setReg_schedule (s : State) (x : Reg) (b : Byte) : (s.setReg x b).schedule = s.schedule := rfl
@[simp] theorem State.setReg_rnd (s : State) (x : Reg) (b : Byte) : (s.setReg x b).rnd = s.rnd := rfl
@[simp] theorem State.setReg_draws (s : State) (x : Reg) (b : Byte) : (s.setReg x b).draws = s.draws := rfl
@[simp] theorem State.setReg_events (s : State) (x : Reg) (b : Byte) : (s.setReg x b).events = s.events := rfl
@[simp] theorem State.setReg_reply (s : State) (x : Reg) (b : Byte) : (s.setReg x b).reply = s.reply := rfl

/-! ### setVF -/

@[simp] theorem State.setVF_mem (s : State) (f : Byte) : (s.setVF f).mem = s.mem := rfl
@[simp] theorem State.setVF_v (s : State) (f : Byte) : (s.setVF f).v = s.v.set 15 f := rfl
@[simp] theorem State.setVF_I (s : State) (f : Byte) : (s.setVF f).I = s.I := rfl
@[simp] theorem State.setVF_pc (s : State) (f : Byte) : (s.setVF f).pc = s.pc := rfl
@[simp] theorem State.setVF_sp (s : State) (f : Byte) : (s.setVF f).sp = s.sp := rfl
@[simp] theorem State.setVF_stack (s : State) (f : Byte) : (s.setVF f).stack = s.stack := rfl
@[simp] theorem State.setVF_DT (s : State) (f : Byte) : (s.setVF f).DT = s.DT := rfl
@[simp] theorem State.setVF_ST (s : State) (f : Byte) : (s.setVF f).ST = s.ST := rfl
@[simp] theorem State.setVF_fb (s : State) (f : Byte) : (s.setVF f).fb = s.fb := rfl
@[simp] theorem State.setVF_dirty (s : State) (f : Byte) : (s.setVF f).dirty = s.dirty := rfl
@[simp] theorem State.setVF_key (s : State) (f : Byte) : (s.setVF f).key = s.key := rfl
@[simp] theorem State.setVF_halted (s : State) (f : Byte) : (s.setVF f).halted = s.halted := rfl
@[simp] theorem State.setVF_cause (s : State) (f : Byte) : (s.setVF f).cause = s.cause := rfl
@[simp] theorem State.setVF_started (s : State) (f : Byte) : (s.setVF f).started = s.started := rfl
@[simp] theorem State.setVF_schedule (s : State) (f : Byte) : (s.setVF f).schedule = s.schedule := rfl
@[simp] theorem State.setVF_rnd (s : State) (f : Byte) : (s.setVF f).rnd = s.rnd := rfl
@[simp] theorem State.setVF_draws (s : State) (f : Byte) : (s.setVF f).draws = s.draws := rfl
@[simp] theorem State.setVF_events (s : State) (f : Byte) : (s.setVF f).events = s.events := rfl
@[simp] theorem State.setVF_reply (s : State) (f : Byte) : (s.setVF f).reply = s.reply := rfl

/-! ### setRegs -/

@[simp] theorem State.setRegs_mem (s : State) (bs : List Byte) : (s.setRegs bs).mem = s.mem := rfl
@[simp] theorem State.setRegs_v (s : State) (bs : List Byte) : (s.setRegs bs).v = Vector.ofFn fun i : Fin 16 => bs.getD i.val (s.reg i) := rfl
@[simp] theorem State.setRegs_I (s : State) (bs : List Byte) : (s.setRegs bs).I = s.I := rfl
@[simp] theorem State.setRegs_pc (s : State) (bs : List Byte) : (s.setRegs bs).pc = s.pc := rfl
@[simp] theorem State.setRegs_sp (s : State) (bs : List Byte) : (s.setRegs bs).sp = s.sp := rfl
@[simp] theorem State.setRegs_stack (s : State) (bs : List Byte) : (s.setRegs bs).stack = s.stack := rfl
@[simp] theorem State.setRegs_DT (s : State) (bs : List Byte) : (s.setRegs bs).DT = s.DT := rfl
@[simp] theorem State.setRegs_ST (s : State) (bs : List Byte) : (s.setRegs bs).ST = s.ST := rfl
@[simp] theorem State.setRegs_fb (s : State) (bs : List Byte) : (s.setRegs bs).fb = s.fb := rfl
@[simp] theorem State.setRegs_dirty (s : State) (bs : List Byte) : (s.setRegs bs).dirty = s.dirty := rfl
@[simp] theorem State.setRegs_key (s : State) (bs : List Byte) : (s.setRegs bs).key = s.key := rfl
@[simp] theorem State.setRegs_halted (s : State) (bs : List Byte) : (s.setRegs bs).halted = s.halted := rfl
@[simp] theorem State.setRegs_cause (s : State) (bs : List Byte) : (s.setRegs bs).cause = s.cause := rfl
@[simp] theorem State.setRegs_started (s : State) (bs : List Byte) : (s.setRegs bs).started = s.started := rfl
@[simp] theorem State.setRegs_schedule (s : State) (bs : List Byte) : (s.setRegs bs).schedule = s.schedule := rfl
@[simp] theorem State.setRegs_rnd (s : State) (bs : List Byte) : (s.setRegs bs).rnd = s.rnd := rfl
@[simp] theorem State.setRegs_draws (s : State) (bs : List Byte) : (s.setRegs bs).draws = s.draws := rfl
@[simp] theorem State.setRegs_events (s : State) (bs : List Byte) : (s.setRegs bs).events = s.events := rfl
@[simp] theorem State.setRegs_reply (s : State) (bs : List Byte) : (s.setRegs bs).reply = s.reply := rfl

/-! ### setI -/

@[simp] theorem State.setI_mem (s : State) (w : Word) : (s.setI w).mem = s.mem := rfl
@[simp] theorem State.setI_v (s : State) (w : Word) : (s.setI w).v = s.v := rfl
@[simp] theorem State.setI_I (s : State) (w : Word) : (s.setI w).I = w := rfl
@[simp] theorem State.setI_pc (s : State) (w : Word) : (s.setI w).pc = s.pc := rfl
@[simp] theorem State.setI_sp (s : State) (w : Word) : (s.setI w).sp = s.sp := rfl
@[simp] theorem State.setI_stack (s : State) (w : Word) : (s.setI w).stack = s.stack := rfl
@[simp] theorem State.setI_DT (s : State) (w : Word) : (s.setI w).DT = s.DT := rfl
@[simp] theorem State.setI_ST (s : State) (w : Word) : (s.setI w).ST = s.ST := rfl
@[simp] theorem State.setI_fb (s : State) (w : Word) : (s.setI w).fb = s.fb := rfl
@[simp] theorem State.setI_dirty (s : State) (w : Word) : (s.setI w).dirty = s.dirty := rfl
@[simp] theorem State.setI_key (s : State) (w : Word) : (s.setI w).key = s.key := rfl
@[simp] theorem State.setI_halted (s : State) (w : Word) : (s.setI w).halted = s.halted := rfl
@[simp] theorem State.setI_cause (s : State) (w : Word) : (s.setI w).cause = s.cause := rfl
@[simp] theorem State.setI_started (s : State) (w : Word) : (s.setI w).started = s.started := rfl
@[simp] theorem State.setI_schedule (s : State) (w : Word) : (s.setI w).schedule = s.schedule := rfl
@[simp] theorem State.setI_rnd (s : State) (w : Word) : (s.setI w).rnd = s.rnd := rfl
@[simp] theorem State.setI_draws (s : State) (w : Word) : (s.setI w).draws = s.draws := rfl
@[simp] theorem State.setI_events (s : State) (w : Word) : (s.setI w).events = s.events := rfl
@[simp] theorem State.setI_reply (s : State) (w : Word) : (s.setI w).reply = s.reply := rfl

/-! ### goto -/

@[simp] theorem State.goto_mem (s : State) (w : Word) : (s.goto w).mem = s.mem := rfl
@[simp] theorem State.goto_v (s : State) (w : Word) : (s.goto w).v = s.v := rfl
@[simp] theorem State.goto_I (s : State) (w : Word) : (s.goto w).I = s.I := rfl
@[simp] theorem State.goto_pc (s : State) (w : Word) : (s.goto w).pc = w := rfl
@[simp] theorem State.goto_sp (s : State) (w : Word) : (s.goto w).sp = s.sp := rfl
@[simp] theorem State.goto_stack (s : State) (w : Word) : (s.goto w).stack = s.stack := rfl
@[simp] theorem State.goto_DT (s : State) (w : Word) : (s.goto w).DT = s.DT := rfl
@[simp] theorem State.goto_ST (s : State) (w : Word) : (s.goto w).ST = s.ST := rfl
@[simp] theorem State.goto_fb (s : State) (w : Word) : (s.goto w).fb = s.fb := rfl
@[simp] theorem State.goto_dirty (s : State) (w : Word) : (s.goto w).dirty = s.dirty := rfl
@[simp] theorem State.goto_key (s : State) (w : Word) : (s.goto w).key = s.key := rfl
@[simp] theorem State.goto_halted (s : State) (w : Word) : (s.goto w).halted = s.halted := rfl
@[simp] theorem State.goto_cause (s : State) (w : Word) : (s.goto w).cause = s.cause := rfl
@[simp] theorem State.goto_started (s : State) (w : Word) : (s.goto w).started = s.started := rfl
@[simp] theorem State.goto_schedule (s : State) (w : Word) : (s.goto w).schedule = s.schedule := rfl
@[simp] theorem State.goto_rnd (s : State) (w : Word) : (s.goto w).rnd = s.rnd := rfl
@[simp] theorem State.goto_draws (s : State) (w : Word) : (s.goto w).draws = s.draws := rfl
@[simp] theorem State.goto_events (s : State) (w : Word) : (s.goto w).events = s.events := rfl
@[simp] theorem State.goto_reply (s : State) (w : Word) : (s.goto w).reply = s.reply := rfl

/-! ### emit -/

@[simp] theorem State.emit_mem (s : State) (e : Event) : (s.emit e).mem = s.mem := rfl
@[simp] theorem State.emit_v (s : State) (e : Event) : (s.emit e).v = s.v := rfl
@[simp] theorem State.emit_I (s : State) (e : Event) : (s.emit e).I = s.I := rfl
@[simp] theorem State.emit_pc (s : State) (e : Event) : (s.emit e).pc = s.pc := rfl
@[simp] theorem State.emit_sp (s : State) (e : Event) : (s.emit e).sp = s.sp := rfl
@[simp] theorem State.emit_stack (s : State) (e : Event) : (s.emit e).stack = s.stack := rfl
@[simp] theorem State.emit_DT (s : State) (e : Event) : (s.emit e).DT = s.DT := rfl
@[simp] theorem State.emit_ST (s : State) (e : Event) : (s.emit e).ST = s.ST := rfl
@[simp] theorem State.emit_fb (s : State) (e : Event) : (s.emit e).fb = s.fb := rfl
@[simp] theorem State.emit_dirty (s : State) (e : Event) : (s.emit e).dirty = s.dirty := rfl
@[simp] theorem State.emit_key (s : State) (e : Event) : (s.emit e).key = s.key := rfl
@[simp] theorem State.emit_halted (s : State) (e : Event) : (s.emit e).halted = s.halted := rfl
@[simp] theorem State.emit_cause (s : State) (e : Event) : (s.emit e).cause = s.cause := rfl
@[simp] theorem State.emit_started (s : State) (e : Event) : (s.emit e).started = s.started := rfl
@[simp] theorem State.emit_schedule (s : State) (e : Event) : (s.emit e).schedule = s.schedule := rfl
@[simp] theorem State.emit_rnd (s : State) (e : Event) : (s.emit e).rnd = s.rnd := rfl
@[simp] theorem State.emit_draws (s : State) (e : Event) : (s.emit e).draws = s.draws := rfl
@[simp] theorem State.emit_events (s : State) (e : Event) : (s.emit e).events = s.events ++ [e] := rfl
@[simp] theorem State.emit_reply (s : State) (e : Event) : (s.emit e).reply = s.reply := rfl

/-! ### raise -/

@[simp] theorem State.raise_mem (s : State) (f : FatalFault) (info : Nat) : (s.raise f info).mem = s.mem := rfl
@[simp] theorem State.raise_v (s : State) (f : FatalFault) (info : Nat) : (s.raise f info).v = s.v := rfl
@[simp] theorem State.raise_I (s : State) (f : FatalFault) (info : Nat) : (s.raise f info).I = s.I := rfl
@[simp] theorem State.raise_pc (s : State) (f : FatalFault) (info : Nat) : (s.raise f info).pc = s.pc := rfl
@[simp] theorem State.raise_sp (s : State) (f : FatalFault) (info : Nat) : (s.raise f info).sp = s.sp := rfl
@[simp] theorem State.raise_stack (s : State) (f : FatalFault) (info : Nat) : (s.raise f info).stack = s.stack := rfl
@[simp] theorem State.raise_DT (s : State) (f : FatalFault) (info : Nat) : (s.raise f info).DT = s.DT := rfl
@[simp] theorem State.raise_ST (s : State) (f : FatalFault) (info : Nat) : (s.raise f info).ST = s.ST := rfl
@[simp] theorem State.raise_fb (s : State) (f : FatalFault) (info : Nat) : (s.raise f info).fb = s.fb := rfl
@[simp] theorem State.raise_dirty (s : State) (f : FatalFault) (info : Nat) : (s.raise f info).dirty = s.dirty := rfl
@[simp] theorem State.raise_key (s : State) (f : FatalFault) (info : Nat) : (s.raise f info).key = s.key := rfl
@[simp] theorem State.raise_halted (s : State) (f : FatalFault) (info : Nat) : (s.raise f info).halted = true := rfl
@[simp] theorem State.raise_cause (s : State) (f : FatalFault) (info : Nat) : (s.raise f info).cause = f.code := rfl
@[simp] theorem State.raise_started (s : State) (f : FatalFault) (info : Nat) : (s.raise f info).started = s.started := rfl
@[simp] theorem State.raise_schedule (s : State) (f : FatalFault) (info : Nat) : (s.raise f info).schedule = s.schedule := rfl
@[simp] theorem State.raise_rnd (s : State) (f : FatalFault) (info : Nat) : (s.raise f info).rnd = s.rnd := rfl
@[simp] theorem State.raise_draws (s : State) (f : FatalFault) (info : Nat) : (s.raise f info).draws = s.draws := rfl
@[simp] theorem State.raise_events (s : State) (f : FatalFault) (info : Nat) : (s.raise f info).events = s.events ++ [.fault f.code info] := rfl
@[simp] theorem State.raise_reply (s : State) (f : FatalFault) (info : Nat) : (s.raise f info).reply = s.reply := rfl

/-! ### setFrame -/

@[simp] theorem State.setFrame_mem (s : State) (p : FrameBuffer) : (s.setFrame p).mem = s.mem := rfl
@[simp] theorem State.setFrame_v (s : State) (p : FrameBuffer) : (s.setFrame p).v = s.v := rfl
@[simp] theorem State.setFrame_I (s : State) (p : FrameBuffer) : (s.setFrame p).I = s.I := rfl
@[simp] theorem State.setFrame_pc (s : State) (p : FrameBuffer) : (s.setFrame p).pc = s.pc := rfl
@[simp] theorem State.setFrame_sp (s : State) (p : FrameBuffer) : (s.setFrame p).sp = s.sp := rfl
@[simp] theorem State.setFrame_stack (s : State) (p : FrameBuffer) : (s.setFrame p).stack = s.stack := rfl
@[simp] theorem State.setFrame_DT (s : State) (p : FrameBuffer) : (s.setFrame p).DT = s.DT := rfl
@[simp] theorem State.setFrame_ST (s : State) (p : FrameBuffer) : (s.setFrame p).ST = s.ST := rfl
@[simp] theorem State.setFrame_fb (s : State) (p : FrameBuffer) : (s.setFrame p).fb = p := rfl
@[simp] theorem State.setFrame_dirty (s : State) (p : FrameBuffer) : (s.setFrame p).dirty = true := rfl
@[simp] theorem State.setFrame_key (s : State) (p : FrameBuffer) : (s.setFrame p).key = s.key := rfl
@[simp] theorem State.setFrame_halted (s : State) (p : FrameBuffer) : (s.setFrame p).halted = s.halted := rfl
@[simp] theorem State.setFrame_cause (s : State) (p : FrameBuffer) : (s.setFrame p).cause = s.cause := rfl
@[simp] theorem State.setFrame_started (s : State) (p : FrameBuffer) : (s.setFrame p).started = s.started := rfl
@[simp] theorem State.setFrame_schedule (s : State) (p : FrameBuffer) : (s.setFrame p).schedule = s.schedule := rfl
@[simp] theorem State.setFrame_rnd (s : State) (p : FrameBuffer) : (s.setFrame p).rnd = s.rnd := rfl
@[simp] theorem State.setFrame_draws (s : State) (p : FrameBuffer) : (s.setFrame p).draws = s.draws := rfl
@[simp] theorem State.setFrame_events (s : State) (p : FrameBuffer) : (s.setFrame p).events = s.events := rfl
@[simp] theorem State.setFrame_reply (s : State) (p : FrameBuffer) : (s.setFrame p).reply = s.reply := rfl

/-! ### setDT -/

@[simp] theorem State.setDT_mem (s : State) (b : Byte) : (s.setDT b).mem = s.mem := rfl
@[simp] theorem State.setDT_v (s : State) (b : Byte) : (s.setDT b).v = s.v := rfl
@[simp] theorem State.setDT_I (s : State) (b : Byte) : (s.setDT b).I = s.I := rfl
@[simp] theorem State.setDT_pc (s : State) (b : Byte) : (s.setDT b).pc = s.pc := rfl
@[simp] theorem State.setDT_sp (s : State) (b : Byte) : (s.setDT b).sp = s.sp := rfl
@[simp] theorem State.setDT_stack (s : State) (b : Byte) : (s.setDT b).stack = s.stack := rfl
@[simp] theorem State.setDT_DT (s : State) (b : Byte) : (s.setDT b).DT = b := rfl
@[simp] theorem State.setDT_ST (s : State) (b : Byte) : (s.setDT b).ST = s.ST := rfl
@[simp] theorem State.setDT_fb (s : State) (b : Byte) : (s.setDT b).fb = s.fb := rfl
@[simp] theorem State.setDT_dirty (s : State) (b : Byte) : (s.setDT b).dirty = s.dirty := rfl
@[simp] theorem State.setDT_key (s : State) (b : Byte) : (s.setDT b).key = s.key := rfl
@[simp] theorem State.setDT_halted (s : State) (b : Byte) : (s.setDT b).halted = s.halted := rfl
@[simp] theorem State.setDT_cause (s : State) (b : Byte) : (s.setDT b).cause = s.cause := rfl
@[simp] theorem State.setDT_started (s : State) (b : Byte) : (s.setDT b).started = s.started := rfl
@[simp] theorem State.setDT_schedule (s : State) (b : Byte) : (s.setDT b).schedule = s.schedule := rfl
@[simp] theorem State.setDT_rnd (s : State) (b : Byte) : (s.setDT b).rnd = s.rnd := rfl
@[simp] theorem State.setDT_draws (s : State) (b : Byte) : (s.setDT b).draws = s.draws := rfl
@[simp] theorem State.setDT_events (s : State) (b : Byte) : (s.setDT b).events = s.events := rfl
@[simp] theorem State.setDT_reply (s : State) (b : Byte) : (s.setDT b).reply = s.reply := rfl

/-! ### setST -/

@[simp] theorem State.setST_mem (s : State) (b : Byte) : (s.setST b).mem = s.mem := rfl
@[simp] theorem State.setST_v (s : State) (b : Byte) : (s.setST b).v = s.v := rfl
@[simp] theorem State.setST_I (s : State) (b : Byte) : (s.setST b).I = s.I := rfl
@[simp] theorem State.setST_pc (s : State) (b : Byte) : (s.setST b).pc = s.pc := rfl
@[simp] theorem State.setST_sp (s : State) (b : Byte) : (s.setST b).sp = s.sp := rfl
@[simp] theorem State.setST_stack (s : State) (b : Byte) : (s.setST b).stack = s.stack := rfl
@[simp] theorem State.setST_DT (s : State) (b : Byte) : (s.setST b).DT = s.DT := rfl
@[simp] theorem State.setST_ST (s : State) (b : Byte) : (s.setST b).ST = b := rfl
@[simp] theorem State.setST_fb (s : State) (b : Byte) : (s.setST b).fb = s.fb := rfl
@[simp] theorem State.setST_dirty (s : State) (b : Byte) : (s.setST b).dirty = s.dirty := rfl
@[simp] theorem State.setST_key (s : State) (b : Byte) : (s.setST b).key = s.key := rfl
@[simp] theorem State.setST_halted (s : State) (b : Byte) : (s.setST b).halted = s.halted := rfl
@[simp] theorem State.setST_cause (s : State) (b : Byte) : (s.setST b).cause = s.cause := rfl
@[simp] theorem State.setST_started (s : State) (b : Byte) : (s.setST b).started = s.started := rfl
@[simp] theorem State.setST_schedule (s : State) (b : Byte) : (s.setST b).schedule = s.schedule := rfl
@[simp] theorem State.setST_rnd (s : State) (b : Byte) : (s.setST b).rnd = s.rnd := rfl
@[simp] theorem State.setST_draws (s : State) (b : Byte) : (s.setST b).draws = s.draws := rfl
@[simp] theorem State.setST_events (s : State) (b : Byte) : (s.setST b).events = s.events ++ soundEdge s.ST b := rfl
@[simp] theorem State.setST_reply (s : State) (b : Byte) : (s.setST b).reply = s.reply := rfl

/-! ### countDraw -/

@[simp] theorem State.countDraw_mem (s : State) : (s.countDraw).mem = s.mem := rfl
@[simp] theorem State.countDraw_v (s : State) : (s.countDraw).v = s.v := rfl
@[simp] theorem State.countDraw_I (s : State) : (s.countDraw).I = s.I := rfl
@[simp] theorem State.countDraw_pc (s : State) : (s.countDraw).pc = s.pc := rfl
@[simp] theorem State.countDraw_sp (s : State) : (s.countDraw).sp = s.sp := rfl
@[simp] theorem State.countDraw_stack (s : State) : (s.countDraw).stack = s.stack := rfl
@[simp] theorem State.countDraw_DT (s : State) : (s.countDraw).DT = s.DT := rfl
@[simp] theorem State.countDraw_ST (s : State) : (s.countDraw).ST = s.ST := rfl
@[simp] theorem State.countDraw_fb (s : State) : (s.countDraw).fb = s.fb := rfl
@[simp] theorem State.countDraw_dirty (s : State) : (s.countDraw).dirty = s.dirty := rfl
@[simp] theorem State.countDraw_key (s : State) : (s.countDraw).key = s.key := rfl
@[simp] theorem State.countDraw_halted (s : State) : (s.countDraw).halted = s.halted := rfl
@[simp] theorem State.countDraw_cause (s : State) : (s.countDraw).cause = s.cause := rfl
@[simp] theorem State.countDraw_started (s : State) : (s.countDraw).started = s.started := rfl
@[simp] theorem State.countDraw_schedule (s : State) : (s.countDraw).schedule = s.schedule := rfl
@[simp] theorem State.countDraw_rnd (s : State) : (s.countDraw).rnd = s.rnd := rfl
@[simp] theorem State.countDraw_draws (s : State) : (s.countDraw).draws = s.draws + 1 := rfl
@[simp] theorem State.countDraw_events (s : State) : (s.countDraw).events = s.events := rfl
@[simp] theorem State.countDraw_reply (s : State) : (s.countDraw).reply = s.reply := rfl

/-! ### beginTransition -/

@[simp] theorem State.beginTransition_mem (s : State) (rest : List Transition) (o : Option Byte) : (s.beginTransition rest o).mem = s.mem := rfl
@[simp] theorem State.beginTransition_v (s : State) (rest : List Transition) (o : Option Byte) : (s.beginTransition rest o).v = s.v := rfl
@[simp] theorem State.beginTransition_I (s : State) (rest : List Transition) (o : Option Byte) : (s.beginTransition rest o).I = s.I := rfl
@[simp] theorem State.beginTransition_pc (s : State) (rest : List Transition) (o : Option Byte) : (s.beginTransition rest o).pc = s.pc := rfl
@[simp] theorem State.beginTransition_sp (s : State) (rest : List Transition) (o : Option Byte) : (s.beginTransition rest o).sp = s.sp := rfl
@[simp] theorem State.beginTransition_stack (s : State) (rest : List Transition) (o : Option Byte) : (s.beginTransition rest o).stack = s.stack := rfl
@[simp] theorem State.beginTransition_DT (s : State) (rest : List Transition) (o : Option Byte) : (s.beginTransition rest o).DT = s.DT := rfl
@[simp] theorem State.beginTransition_ST (s : State) (rest : List Transition) (o : Option Byte) : (s.beginTransition rest o).ST = s.ST := rfl
@[simp] theorem State.beginTransition_fb (s : State) (rest : List Transition) (o : Option Byte) : (s.beginTransition rest o).fb = s.fb := rfl
@[simp] theorem State.beginTransition_dirty (s : State) (rest : List Transition) (o : Option Byte) : (s.beginTransition rest o).dirty = s.dirty := rfl
@[simp] theorem State.beginTransition_key (s : State) (rest : List Transition) (o : Option Byte) : (s.beginTransition rest o).key = s.key := rfl
@[simp] theorem State.beginTransition_halted (s : State) (rest : List Transition) (o : Option Byte) : (s.beginTransition rest o).halted = s.halted := rfl
@[simp] theorem State.beginTransition_cause (s : State) (rest : List Transition) (o : Option Byte) : (s.beginTransition rest o).cause = s.cause := rfl
@[simp] theorem State.beginTransition_started (s : State) (rest : List Transition) (o : Option Byte) : (s.beginTransition rest o).started = s.started := rfl
@[simp] theorem State.beginTransition_schedule (s : State) (rest : List Transition) (o : Option Byte) : (s.beginTransition rest o).schedule = rest := rfl
@[simp] theorem State.beginTransition_rnd (s : State) (rest : List Transition) (o : Option Byte) : (s.beginTransition rest o).rnd = o := rfl
@[simp] theorem State.beginTransition_draws (s : State) (rest : List Transition) (o : Option Byte) : (s.beginTransition rest o).draws = s.draws := rfl
@[simp] theorem State.beginTransition_events (s : State) (rest : List Transition) (o : Option Byte) : (s.beginTransition rest o).events = [] := rfl
@[simp] theorem State.beginTransition_reply (s : State) (rest : List Transition) (o : Option Byte) : (s.beginTransition rest o).reply = .none := rfl

/-! ### beginCycle -/

@[simp] theorem State.beginCycle_mem (s : State) (rest : List Transition) (o : Option Byte) : (s.beginCycle rest o).mem = s.mem := rfl
@[simp] theorem State.beginCycle_v (s : State) (rest : List Transition) (o : Option Byte) : (s.beginCycle rest o).v = s.v := rfl
@[simp] theorem State.beginCycle_I (s : State) (rest : List Transition) (o : Option Byte) : (s.beginCycle rest o).I = s.I := rfl
@[simp] theorem State.beginCycle_pc (s : State) (rest : List Transition) (o : Option Byte) : (s.beginCycle rest o).pc = s.pc := rfl
@[simp] theorem State.beginCycle_sp (s : State) (rest : List Transition) (o : Option Byte) : (s.beginCycle rest o).sp = s.sp := rfl
@[simp] theorem State.beginCycle_stack (s : State) (rest : List Transition) (o : Option Byte) : (s.beginCycle rest o).stack = s.stack := rfl
@[simp] theorem State.beginCycle_DT (s : State) (rest : List Transition) (o : Option Byte) : (s.beginCycle rest o).DT = s.DT := rfl
@[simp] theorem State.beginCycle_ST (s : State) (rest : List Transition) (o : Option Byte) : (s.beginCycle rest o).ST = s.ST := rfl
@[simp] theorem State.beginCycle_fb (s : State) (rest : List Transition) (o : Option Byte) : (s.beginCycle rest o).fb = s.fb := rfl
@[simp] theorem State.beginCycle_dirty (s : State) (rest : List Transition) (o : Option Byte) : (s.beginCycle rest o).dirty = s.dirty := rfl
@[simp] theorem State.beginCycle_key (s : State) (rest : List Transition) (o : Option Byte) : (s.beginCycle rest o).key = s.key := rfl
@[simp] theorem State.beginCycle_halted (s : State) (rest : List Transition) (o : Option Byte) : (s.beginCycle rest o).halted = s.halted := rfl
@[simp] theorem State.beginCycle_cause (s : State) (rest : List Transition) (o : Option Byte) : (s.beginCycle rest o).cause = s.cause := rfl
@[simp] theorem State.beginCycle_started (s : State) (rest : List Transition) (o : Option Byte) : (s.beginCycle rest o).started = true := rfl
@[simp] theorem State.beginCycle_schedule (s : State) (rest : List Transition) (o : Option Byte) : (s.beginCycle rest o).schedule = rest := rfl
@[simp] theorem State.beginCycle_rnd (s : State) (rest : List Transition) (o : Option Byte) : (s.beginCycle rest o).rnd = o := rfl
@[simp] theorem State.beginCycle_draws (s : State) (rest : List Transition) (o : Option Byte) : (s.beginCycle rest o).draws = s.draws := rfl
@[simp] theorem State.beginCycle_events (s : State) (rest : List Transition) (o : Option Byte) : (s.beginCycle rest o).events = [] := rfl
@[simp] theorem State.beginCycle_reply (s : State) (rest : List Transition) (o : Option Byte) : (s.beginCycle rest o).reply = .none := rfl

end Sys2Proof.Machine
end

