-- ==== Sys2Proof/Laws/Ops.lean ====
section
/-! SUPPORT. One lemma per shared operation that says what it does: registers, stack, flags, the
shapes of the meanings, the fault. -/

namespace Sys2Proof.Machine

/-! ### Registers -/

/-- A register write changes its register and no other. -/
@[simp] theorem State.reg_setReg (s : State) (x r : Reg) (b : Byte) :
    (s.setReg x b).reg r = if r = x then b else s.reg r := by
  simp only [State.reg, State.setReg, Vector.getElem_set, Fin.ext_iff, eq_comm]

@[simp] theorem State.reg_setVF (s : State) (r : Reg) (f : Byte) :
    (s.setVF f).reg r = if r = VF then f else s.reg r := State.reg_setReg s VF r f

/-- A block load changes the registers its list reaches. -/
@[simp] theorem State.reg_setRegs (s : State) (bs : List Byte) (r : Reg) :
    (s.setRegs bs).reg r = bs.getD r.val (s.reg r) := by
  simp [State.reg, State.setRegs]

@[simp] theorem State.reg_setI (s : State) (w : Word) (r : Reg) : (s.setI w).reg r = s.reg r := rfl
@[simp] theorem State.reg_goto (s : State) (w : Word) (r : Reg) : (s.goto w).reg r = s.reg r := rfl
@[simp] theorem State.reg_emit (s : State) (e : Event) (r : Reg) : (s.emit e).reg r = s.reg r := rfl
@[simp] theorem State.reg_raise (s : State) (f : FatalFault) (info : Nat) (r : Reg) :
    (s.raise f info).reg r = s.reg r := rfl
@[simp] theorem State.reg_setFrame (s : State) (p : FrameBuffer) (r : Reg) :
    (s.setFrame p).reg r = s.reg r := rfl
@[simp] theorem State.reg_setDT (s : State) (b : Byte) (r : Reg) : (s.setDT b).reg r = s.reg r := rfl
@[simp] theorem State.reg_setST (s : State) (b : Byte) (r : Reg) : (s.setST b).reg r = s.reg r := rfl
@[simp] theorem State.reg_countDraw (s : State) (r : Reg) : s.countDraw.reg r = s.reg r := rfl
@[simp] theorem State.npc_countDraw (s : State) : s.countDraw.npc = s.npc := rfl

@[simp] theorem State.regsUpTo_length (s : State) (x : Reg) :
    (s.regsUpTo x).length = x.val + 1 := by
  simp [State.regsUpTo]

/-- The block `FX55` stores holds `v[i]` at place `i`. -/
theorem State.regsUpTo_getD (s : State) (x i : Reg) (d : Byte) (h : i.val ≤ x.val) :
    (s.regsUpTo x).getD i.val d = s.reg i := by
  simp [State.regsUpTo, State.reg, List.getD_eq_getElem?_getD, Nat.lt_succ_of_le h]

/-! ### The return stack -/

theorem State.push_room {s : State} (w : Word) (h : s.sp.val < 16) :
    s.push w = some { s with stack := s.stack.set s.sp.val w, sp := ⟨s.sp.val + 1, by omega⟩ } :=
  dif_pos h

theorem State.push_full {s : State} (w : Word) (h : ¬ s.sp.val < 16) : s.push w = none := dif_neg h

theorem State.pop_held {s : State} (h : s.sp.val ≠ 0) :
    s.pop = some (s.stack[s.sp.val - 1]'(by have := s.sp.isLt; omega),
      { s with sp := ⟨s.sp.val - 1, by have := s.sp.isLt; omega⟩ }) := dif_neg h

theorem State.pop_empty {s : State} (h : s.sp.val = 0) : s.pop = none := dif_pos h

/-! ### Flags are 0 or 1 -/

theorem flagByte_is_bit (c : Bool) : flagByte c = 0 ∨ flagByte c = 1 := by cases c <;> simp [flagByte]

/-! ### The shapes of the meanings -/

/-- The one case of `skipIf`. -/
theorem skipIf_next (c : Bool) (s : State) :
    skipIf c s = .next (s.goto (if c then s.pc + 2 + 2 else s.pc + 2)) := rfl

theorem writeReg_next (x : Reg) (b : Byte) (s : State) :
    writeReg x b s = .next ((s.setReg x b).goto (s.pc + 2)) := rfl

theorem writeRegThenFlag_next (x : Reg) (b f : Byte) (s : State) :
    writeRegThenFlag x b f s = .next (((s.setReg x b).setVF f).goto (s.pc + 2)) := rfl

theorem writeFlagThenReg_next (x : Reg) (b f : Byte) (s : State) :
    writeFlagThenReg x b f s = .next (((s.setVF f).setReg x b).goto (s.pc + 2)) := rfl

/-- Everything a store through `I` can do: the bytes are stored, or the range fault is taken. -/
theorem storeAtIndex_cases (bs : List Byte) (s : State) :
    (s.I.toNat + bs.length ≤ 4096 ∧ storeAtIndex bs s =
      .next (({ s with mem := s.mem.writeBytes s.I.toNat bs } : State).goto (s.pc + 2))) ∨
    (¬ s.I.toNat + bs.length ≤ 4096 ∧ storeAtIndex bs s =
      .next (s.raise .memOutOfRange (max s.I.toNat 4096))) := by
  unfold storeAtIndex State.effectiveAddress; rw [Nat.add_zero s.I.toNat]
  by_cases h : s.I.toNat + bs.length ≤ 4096
  · exact .inl ⟨h, by rw [memWrite_inside h]; rfl⟩
  · exact .inr ⟨h, by rw [memWrite_outside h]⟩

/-- Everything `FX65` can do. -/
theorem execLdVxMem_cases (x : Reg) (s : State) :
    (s.I.toNat + (x.val + 1) ≤ 4096 ∧ execLdVxMem x s =
      .next ((s.setRegs (s.mem.readBytes s.I.toNat (x.val + 1))).goto (s.pc + 2))) ∨
    (¬ s.I.toNat + (x.val + 1) ≤ 4096 ∧ execLdVxMem x s =
      .next (s.raise .memOutOfRange (max s.I.toNat 4096))) := by
  unfold execLdVxMem State.effectiveAddress; rw [Nat.add_zero s.I.toNat]
  by_cases h : s.I.toNat + (x.val + 1) ≤ 4096
  · exact .inl ⟨h, by rw [memRead_inside h]; rfl⟩
  · exact .inr ⟨h, by rw [memRead_outside h]⟩

/-- The rows a sprite has: none for `N = 0`, else the bytes at `I`, or the range fault. -/
theorem spriteRows_cases (n : Nibble) (s : State) :
    (n = 0 ∧ spriteRows n s = .ok []) ∨
    (n ≠ 0 ∧ s.I.toNat + n.toNat ≤ 4096 ∧
      spriteRows n s = .ok (s.mem.readBytes s.I.toNat n.toNat)) ∨
    (n ≠ 0 ∧ ¬ s.I.toNat + n.toNat ≤ 4096 ∧
      spriteRows n s = .error (.memOutOfRange, max s.I.toNat 4096)) := by
  unfold spriteRows State.effectiveAddress; rw [Nat.add_zero s.I.toNat]
  by_cases hn : n = 0
  · exact .inl ⟨hn, if_pos hn⟩
  · by_cases h : s.I.toNat + n.toNat ≤ 4096
    · exact .inr (.inl ⟨hn, h, by rw [if_neg hn, memRead_inside h]⟩)
    · exact .inr (.inr ⟨hn, h, by rw [if_neg hn, memRead_outside h]⟩)

/-- Everything `00EE` can do. -/
theorem execRet_cases (s : State) :
    (s.sp.val = 0 ∧ execRet s = .next (s.raise .stackUnderflow s.pc.toNat)) ∨
    (∃ _h : s.sp.val ≠ 0, execRet s =
      .next (({ s with sp := ⟨s.sp.val - 1, by have := s.sp.isLt; omega⟩ } : State).goto
        (s.stack[s.sp.val - 1]'(by have := s.sp.isLt; omega)))) := by
  by_cases h : s.sp.val = 0
  · exact .inl ⟨h, by simp only [execRet, State.pop_empty h]⟩
  · exact .inr ⟨h, by simp only [execRet, State.pop_held h]⟩

/-- Everything `2NNN` can do. -/
theorem execCallNnn_cases (nnn : Addr12) (s : State) :
    (s.sp.val = 16 ∧ execCallNnn nnn s = .next (s.raise .stackOverflow s.pc.toNat)) ∨
    (∃ h : s.sp.val < 16, execCallNnn nnn s =
      .next (({ s with stack := s.stack.set s.sp.val (s.pc + 2),
                       sp := ⟨s.sp.val + 1, by omega⟩ } : State).goto (zext16 nnn))) := by
  by_cases h : s.sp.val < 16
  · exact .inr ⟨h, by simp only [execCallNnn, State.push_room _ h]; rfl⟩
  · have := s.sp.isLt
    exact .inl ⟨by omega, by simp only [execCallNnn, State.push_full _ h]⟩

/-- Everything `FX0A` can do. -/
theorem execLdVxK_cases (x : Reg) (s : State) :
    (s.lowestKey = none ∧ execLdVxK x s = .next s) ∨
    (∃ j, s.lowestKey = some j ∧
      execLdVxK x s = .next ((s.setReg x (BitVec.ofNat 8 j.val)).goto (s.pc + 2))) := by
  cases h : s.lowestKey with
  | none =>
    refine .inl ⟨rfl, ?_⟩
    have : s.npc - 2 = s.pc := by simp [State.npc]
    simp only [execLdVxK, h, this]; rfl
  | some j => exact .inr ⟨j, rfl, by simp only [execLdVxK, h]; rfl⟩

/-- Everything `DXYN` can do. -/
theorem execDrwVxVyN_cases (x y : Reg) (n : Nibble) (s : State) :
    (n ≠ 0 ∧ ¬ s.I.toNat + n.toNat ≤ 4096 ∧ execDrwVxVyN x y n s =
      .next (s.raise .memOutOfRange (max s.I.toNat 4096))) ∨
    ((n = 0 ∨ s.I.toNat + n.toNat ≤ 4096) ∧ execDrwVxVyN x y n s =
      let drawn := blitRows (s.mem.readBytes s.I.toNat n.toNat) (s.reg x).toNat (s.reg y).toNat
        ⟨s.fb, false⟩
      .next (((s.setFrame drawn.fb).setVF (flagByte drawn.hit)).goto (s.pc + 2))) := by
  obtain ⟨hn, he⟩ | ⟨hn, h, he⟩ | ⟨hn, h, he⟩ := spriteRows_cases n s
  · refine .inr ⟨.inl hn, ?_⟩
    subst hn
    simp only [execDrwVxVyN, he]; rfl
  · exact .inr ⟨.inr h, by simp only [execDrwVxVyN, he]; rfl⟩
  · exact .inl ⟨hn, h, by simp only [execDrwVxVyN, he]⟩

/-! ### Pixels -/

/-- A toggle inverts its pixel and no other (coordinates wrap). -/
theorem FrameBuffer.pixel_toggle (fb : FrameBuffer) (x y x' y' : Nat) :
    (fb.toggle x y).pixel x' y' =
      (fb.pixel x' y' ^^ (decide (x' % 64 = x % 64) && decide (y' % 32 = y % 32))) := by
  have hx : x' % 64 < 64 := Nat.mod_lt _ (by decide)
  by_cases hy : y % 32 = y' % 32
  · simp [FrameBuffer.pixel, FrameBuffer.toggle, hy, hx, eq_comm]
  · simp [FrameBuffer.pixel, FrameBuffer.toggle, hy, Ne.symm hy]

@[simp] theorem FrameBuffer.pixel_clear (x y : Nat) : FrameBuffer.clear.pixel x y = false := by
  simp [FrameBuffer.pixel, FrameBuffer.clear]

end Sys2Proof.Machine
end

