-- ==== Sys2Proof/Laws/PerInstr.lean ====
section
/-! SUPPORT. Per instruction: it is well-formed, and the word it encodes to has the literal digits of
its row (spec/30_encoding.md R92, R95). -/

namespace Sys2Proof.Laws

/-- The instruction passes the well-formedness check and its word matches its pattern. -/
def WordFormat.Statement (i : Instr) : Prop :=
  i.wellFormed = true ∧ i.pattern.matchesWord (encode i) = true

/-- The operands fit, one lemma per format. -/
theorem ofNNN_wellFormed (a : Addr12) : (Form.ofNNN a.toNat).wellFormed = true := by
  have := a.isLt
  simp [Form.wellFormed, Form.hasFields, Form.ofNNN, Format.fields, Operand.fits, Field.width]; exact decide_eq_true this

theorem ofXKK_wellFormed (x : Reg) (kk : Byte) : (Form.ofXKK x.val kk.toNat).wellFormed = true := by
  have := kk.isLt
  simp [Form.wellFormed, Form.hasFields, Form.ofXKK, Format.fields, Operand.fits, Field.width]; exact decide_eq_true this

theorem ofXY_wellFormed (x y : Reg) : (Form.ofXY x.val y.val).wellFormed = true := by
  simp [Form.wellFormed, Form.hasFields, Form.ofXY, Format.fields, Operand.fits, Field.width]

theorem ofXYN_wellFormed (x y : Reg) (n : Nibble) :
    (Form.ofXYN x.val y.val n.toNat).wellFormed = true := by
  have := n.isLt
  simp [Form.wellFormed, Form.hasFields, Form.ofXYN, Format.fields, Operand.fits, Field.width]; exact decide_eq_true this

theorem ofX_wellFormed (x : Reg) : (Form.ofX x.val).wellFormed = true := by
  simp [Form.wellFormed, Form.hasFields, Form.ofX, Format.fields, Operand.fits, Field.width]

theorem WordFormat.cls : Statement .cls := by
  exact ⟨by decide, by decide⟩

theorem WordFormat.ret : Statement .ret := by
  exact ⟨by decide, by decide⟩

theorem WordFormat.jpNnn (nnn : Addr12) : Statement (.jpNnn nnn) :=
  ⟨ofNNN_wellFormed nnn, by simp [Instr.pattern, encode, Pattern.matchesWord, digitMatches]⟩

theorem WordFormat.callNnn (nnn : Addr12) : Statement (.callNnn nnn) :=
  ⟨ofNNN_wellFormed nnn, by simp [Instr.pattern, encode, Pattern.matchesWord, digitMatches]⟩

theorem WordFormat.seVxKk (x : Reg) (kk : Byte) : Statement (.seVxKk x kk) :=
  ⟨ofXKK_wellFormed x kk, by simp [Instr.pattern, encode, Pattern.matchesWord, digitMatches]⟩

theorem WordFormat.sneVxKk (x : Reg) (kk : Byte) : Statement (.sneVxKk x kk) :=
  ⟨ofXKK_wellFormed x kk, by simp [Instr.pattern, encode, Pattern.matchesWord, digitMatches]⟩

theorem WordFormat.seVxVy (x : Reg) (y : Reg) : Statement (.seVxVy x y) :=
  ⟨ofXY_wellFormed x y, by simp [Instr.pattern, encode, Pattern.matchesWord, digitMatches]⟩

theorem WordFormat.ldVxKk (x : Reg) (kk : Byte) : Statement (.ldVxKk x kk) :=
  ⟨ofXKK_wellFormed x kk, by simp [Instr.pattern, encode, Pattern.matchesWord, digitMatches]⟩

theorem WordFormat.addVxKk (x : Reg) (kk : Byte) : Statement (.addVxKk x kk) :=
  ⟨ofXKK_wellFormed x kk, by simp [Instr.pattern, encode, Pattern.matchesWord, digitMatches]⟩

theorem WordFormat.ldVxVy (x : Reg) (y : Reg) : Statement (.ldVxVy x y) :=
  ⟨ofXY_wellFormed x y, by simp [Instr.pattern, encode, Pattern.matchesWord, digitMatches]⟩

theorem WordFormat.orVxVy (x : Reg) (y : Reg) : Statement (.orVxVy x y) :=
  ⟨ofXY_wellFormed x y, by simp [Instr.pattern, encode, Pattern.matchesWord, digitMatches]⟩

theorem WordFormat.andVxVy (x : Reg) (y : Reg) : Statement (.andVxVy x y) :=
  ⟨ofXY_wellFormed x y, by simp [Instr.pattern, encode, Pattern.matchesWord, digitMatches]⟩

theorem WordFormat.xorVxVy (x : Reg) (y : Reg) : Statement (.xorVxVy x y) :=
  ⟨ofXY_wellFormed x y, by simp [Instr.pattern, encode, Pattern.matchesWord, digitMatches]⟩

theorem WordFormat.addVxVy (x : Reg) (y : Reg) : Statement (.addVxVy x y) :=
  ⟨ofXY_wellFormed x y, by simp [Instr.pattern, encode, Pattern.matchesWord, digitMatches]⟩

theorem WordFormat.subVxVy (x : Reg) (y : Reg) : Statement (.subVxVy x y) :=
  ⟨ofXY_wellFormed x y, by simp [Instr.pattern, encode, Pattern.matchesWord, digitMatches]⟩

theorem WordFormat.shrVx (x : Reg) (y : Reg) : Statement (.shrVx x y) :=
  ⟨ofXY_wellFormed x y, by simp [Instr.pattern, encode, Pattern.matchesWord, digitMatches]⟩

theorem WordFormat.subnVxVy (x : Reg) (y : Reg) : Statement (.subnVxVy x y) :=
  ⟨ofXY_wellFormed x y, by simp [Instr.pattern, encode, Pattern.matchesWord, digitMatches]⟩

theorem WordFormat.shlVx (x : Reg) (y : Reg) : Statement (.shlVx x y) :=
  ⟨ofXY_wellFormed x y, by simp [Instr.pattern, encode, Pattern.matchesWord, digitMatches]⟩

theorem WordFormat.sneVxVy (x : Reg) (y : Reg) : Statement (.sneVxVy x y) :=
  ⟨ofXY_wellFormed x y, by simp [Instr.pattern, encode, Pattern.matchesWord, digitMatches]⟩

theorem WordFormat.ldINnn (nnn : Addr12) : Statement (.ldINnn nnn) :=
  ⟨ofNNN_wellFormed nnn, by simp [Instr.pattern, encode, Pattern.matchesWord, digitMatches]⟩

theorem WordFormat.jpV0Nnn (nnn : Addr12) : Statement (.jpV0Nnn nnn) :=
  ⟨ofNNN_wellFormed nnn, by simp [Instr.pattern, encode, Pattern.matchesWord, digitMatches]⟩

theorem WordFormat.rndVxKk (x : Reg) (kk : Byte) : Statement (.rndVxKk x kk) :=
  ⟨ofXKK_wellFormed x kk, by simp [Instr.pattern, encode, Pattern.matchesWord, digitMatches]⟩

theorem WordFormat.drwVxVyN (x : Reg) (y : Reg) (n : Nibble) : Statement (.drwVxVyN x y n) :=
  ⟨ofXYN_wellFormed x y n, by simp [Instr.pattern, encode, Pattern.matchesWord, digitMatches]⟩

theorem WordFormat.skpVx (x : Reg) : Statement (.skpVx x) :=
  ⟨ofX_wellFormed x, by simp [Instr.pattern, encode, Pattern.matchesWord, digitMatches]⟩

theorem WordFormat.sknpVx (x : Reg) : Statement (.sknpVx x) :=
  ⟨ofX_wellFormed x, by simp [Instr.pattern, encode, Pattern.matchesWord, digitMatches]⟩

theorem WordFormat.ldVxDt (x : Reg) : Statement (.ldVxDt x) :=
  ⟨ofX_wellFormed x, by simp [Instr.pattern, encode, Pattern.matchesWord, digitMatches]⟩

theorem WordFormat.ldVxK (x : Reg) : Statement (.ldVxK x) :=
  ⟨ofX_wellFormed x, by simp [Instr.pattern, encode, Pattern.matchesWord, digitMatches]⟩

theorem WordFormat.ldDtVx (x : Reg) : Statement (.ldDtVx x) :=
  ⟨ofX_wellFormed x, by simp [Instr.pattern, encode, Pattern.matchesWord, digitMatches]⟩

theorem WordFormat.ldStVx (x : Reg) : Statement (.ldStVx x) :=
  ⟨ofX_wellFormed x, by simp [Instr.pattern, encode, Pattern.matchesWord, digitMatches]⟩

theorem WordFormat.addIVx (x : Reg) : Statement (.addIVx x) :=
  ⟨ofX_wellFormed x, by simp [Instr.pattern, encode, Pattern.matchesWord, digitMatches]⟩

theorem WordFormat.ldFVx (x : Reg) : Statement (.ldFVx x) :=
  ⟨ofX_wellFormed x, by simp [Instr.pattern, encode, Pattern.matchesWord, digitMatches]⟩

theorem WordFormat.ldBVx (x : Reg) : Statement (.ldBVx x) :=
  ⟨ofX_wellFormed x, by simp [Instr.pattern, encode, Pattern.matchesWord, digitMatches]⟩

theorem WordFormat.ldMemVx (x : Reg) : Statement (.ldMemVx x) :=
  ⟨ofX_wellFormed x, by simp [Instr.pattern, encode, Pattern.matchesWord, digitMatches]⟩

theorem WordFormat.ldVxMem (x : Reg) : Statement (.ldVxMem x) :=
  ⟨ofX_wellFormed x, by simp [Instr.pattern, encode, Pattern.matchesWord, digitMatches]⟩

end Sys2Proof.Laws
end

