-- ==== Sys2Proof/Laws/Step.lean ====
section
/-! SUPPORT. What one step can do, said once: the fetch check, the cases of a cycle, the cases of a
step. -/

namespace Sys2Proof.Machine

/-- The fetch check with this hardware's parameters: `0x000 <= pc <= 0xFFE`. -/
theorem fetchable_iff (pc : Word) : fetchable pc = true ↔ pc.toNat ≤ 0xFFE := by
  simp only [fetchable, fetchLo, memSize_eq, Nat.zero_le, decide_true, Bool.true_and,
    decide_eq_true_eq]
  omega

/-- Everything a cycle can do. -/
theorem runCycle_cases {s t : State} (h : runCycle s = .next t) :
    (s.halted = true ∧ t = s) ∨
    (s.halted = false ∧ 0xFFF ≤ s.pc.toNat ∧ t = s.raise .pcOutOfBounds s.pc.toNat) ∨
    (s.halted = false ∧ s.pc.toNat ≤ 0xFFE ∧
      ∃ i, decodeWord s.fetchWord = .ok i ∧ exec i s = .next t) ∨
    (s.halted = false ∧ s.pc.toNat ≤ 0xFFE ∧ (∃ r, decodeWord s.fetchWord = .error r) ∧
      t = s.warnUnrecognized s.fetchWord) := by
  unfold runCycle at h
  by_cases hh : s.halted = true
  · rw [if_pos hh] at h; cases h; exact .inl ⟨hh, rfl⟩
  · rw [if_neg hh] at h
    have hh : s.halted = false := by simpa using hh
    by_cases hf : fetchable s.pc = true
    · rw [if_pos hf] at h
      have hp := (fetchable_iff s.pc).mp hf
      cases hd : decodeWord s.fetchWord with
      | ok i => exact .inr (.inr (.inl ⟨hh, hp, i, rfl, by simpa only [hd] using h⟩))
      | error r =>
        simp only [hd] at h; cases h
        exact .inr (.inr (.inr ⟨hh, hp, ⟨r, rfl⟩, rfl⟩))
    · rw [if_neg hf] at h; cases h
      have : ¬ s.pc.toNat ≤ 0xFFE := fun hp => hf ((fetchable_iff s.pc).mpr hp)
      exact .inr (.inl ⟨hh, by omega, rfl⟩)

/-- Everything a step can do. -/
theorem step_cases {s t : State} (h : step s = .next t) :
    (s.cycleIsNext = true ∧ ∃ rest o, runCycle (s.beginCycle rest o) = .next t) ∨
    (∃ rest, s.schedule = .tick :: rest ∧ t = tickTimers (s.beginTransition rest none)) ∨
    (∃ k rest, s.schedule = .keyWrite k :: rest ∧ t = writeKeys k (s.beginTransition rest none)) ∨
    (∃ rest, s.schedule = .frameAck :: rest ∧ t = ackFrame (s.beginTransition rest none)) ∨
    (∃ bytes offset rest, s.schedule = .load bytes offset :: rest ∧
      loadBytes bytes offset (s.beginTransition rest none) = .next t) ∨
    (∃ rest, s.schedule = .reset :: rest ∧ t = (s.beginTransition rest none).applyReset) := by
  unfold step at h
  split at h
  · rename_i hs; exact .inl ⟨by simp [State.cycleIsNext, hs], [], none, h⟩
  · rename_i rnd rest hs; exact .inl ⟨by simp [State.cycleIsNext, hs], rest, some rnd, h⟩
  · rename_i rest hs; cases h; exact .inr (.inl ⟨rest, hs, rfl⟩)
  · rename_i k rest hs; cases h; exact .inr (.inr (.inl ⟨k, rest, hs, rfl⟩))
  · rename_i rest hs; cases h; exact .inr (.inr (.inr (.inl ⟨rest, hs, rfl⟩)))
  · rename_i bytes offset rest hs
    exact .inr (.inr (.inr (.inr (.inl ⟨bytes, offset, rest, hs, h⟩))))
  · rename_i rest hs; cases h; exact .inr (.inr (.inr (.inr (.inr ⟨rest, hs, rfl⟩))))

/-- Everything a load that answers a next state can do. -/
theorem loadBytes_cases {bytes : List Byte} {offset : Nat} {s t : State}
    (h : loadBytes bytes offset s = .next t) :
    s.started = false ∧
    ((offset + bytes.length ≤ 4096 ∧
      t = { s with mem := s.mem.writeBytes offset bytes, reply := .loadAccepted }) ∨
     (¬ offset + bytes.length ≤ 4096 ∧ t = { s with reply := .resourceFault })) := by
  unfold loadBytes at h
  split at h
  · cases h
  · rename_i hs
    refine ⟨by simpa using hs, ?_⟩
    split at h <;> cases h
    · rename_i hf; exact .inl ⟨hf, rfl⟩
    · rename_i hf; exact .inr ⟨hf, rfl⟩

/-- A tick as one update: the timers count down, and the sound level's edge is the event. -/
theorem tickTimers_eq (s : State) :
    tickTimers s = { s with DT := if s.DT = 0 then 0 else s.DT - 1,
                            ST := if s.ST = 0 then 0 else s.ST - 1,
                            events := s.events ++ (if s.ST = 1 then [.soundStop] else []) } := by
  have zero_iff : ∀ b : Byte, (0 < b.toNat) ↔ b ≠ 0 := fun b => by
    rw [Nat.pos_iff_ne_zero, ne_eq, ne_eq, ← BitVec.toNat_inj]; rfl
  have one_iff : ∀ b : Byte, b - 1 = 0 ↔ b = 1 := fun b => by rw [sub_eq_zero]
  cases s with
  | mk mem v I pc sp stack DT ST =>
    by_cases hd : DT = 0 <;> by_cases hs : ST = 0 <;> by_cases h1 : ST = 1 <;>
      simp_all [tickTimers, State.setDT, State.setST, soundEdge]

end Sys2Proof.Machine
end

