-- ==== Sys2Proof/Tests/Slice0.lean ====
section
/-! SUPPORT. The model's own tests: the smoke tests of the well-formedness check, the decoding of words
written out from spec/30_encoding.md R95, small one-step tests whose expected results are those of
spec/95_test_vectors.md (the row is named at each), and for every statement with hypotheses a witness
that meets them, at the boundaries of its clauses. -/

namespace Sys2Proof.Tests

open Sys2Proof Sys2Proof.Machine

/-! ### Well-formedness: ill-formed terms are refused (30_encoding.md R91 to R93) -/

theorem test_wf_refuses_missing_operand : Form.wellFormed ⟨.XKK, [⟨.X, 0⟩]⟩ = false := by decide
theorem test_wf_refuses_extra_operand : Form.wellFormed ⟨.FIXED, [⟨.X, 0⟩]⟩ = false := by decide
theorem test_wf_refuses_swapped_fields :
    Form.wellFormed ⟨.XKK, [⟨.KK, 0⟩, ⟨.X, 0⟩]⟩ = false := by decide
theorem test_wf_refuses_register_16 : (Form.ofX 16).wellFormed = false := by decide
theorem test_wf_refuses_second_register_16 : (Form.ofXY 0 16).wellFormed = false := by decide
theorem test_wf_refuses_byte_256 : (Form.ofXKK 0 256).wellFormed = false := by decide
theorem test_wf_refuses_address_4096 : (Form.ofNNN 0x1000).wellFormed = false := by decide
theorem test_wf_refuses_rows_16 : (Form.ofXYN 0 0 16).wellFormed = false := by decide
theorem test_wf_accepts_largest_operands :
    (Form.ofNNN 0xFFF).wellFormed ∧ (Form.ofXKK 15 255).wellFormed ∧
    (Form.ofXYN 15 15 15).wellFormed := by decide

/-! ### Decoding: a word of every row, bit by bit in the digits of its pattern (30_encoding.md R95) -/

theorem test_decode_cls : decode [0b00000000, 0b11100000] = .ok .cls := by decide
theorem test_decode_ret : decode [0b00000000, 0b11101110] = .ok .ret := by decide
theorem test_decode_jp : decode [0b00010010, 0b00000100] = .ok (.jpNnn 0x204) := by decide
theorem test_decode_call : decode [0b00101010, 0b10111100] = .ok (.callNnn 0xABC) := by decide
theorem test_decode_se_imm : decode [0b00110001, 0b00000010] = .ok (.seVxKk 1 0x02) := by decide
theorem test_decode_sne_imm : decode [0b01001010, 0b00000101] = .ok (.sneVxKk 10 0x05) := by decide
theorem test_decode_se_reg : decode [0b01010001, 0b00100000] = .ok (.seVxVy 1 2) := by decide
theorem test_decode_ld_imm : decode [0b01101010, 0b00111100] = .ok (.ldVxKk 10 0x3C) := by decide
theorem test_decode_add_imm : decode [0b01110001, 0b11111111] = .ok (.addVxKk 1 0xFF) := by decide
theorem test_decode_copy : decode [0b10000001, 0b00100000] = .ok (.ldVxVy 1 2) := by decide
theorem test_decode_or : decode [0b10000001, 0b00100001] = .ok (.orVxVy 1 2) := by decide
theorem test_decode_and : decode [0b10000001, 0b00100010] = .ok (.andVxVy 1 2) := by decide
theorem test_decode_xor : decode [0b10000001, 0b00100011] = .ok (.xorVxVy 1 2) := by decide
theorem test_decode_add : decode [0b10000001, 0b00100100] = .ok (.addVxVy 1 2) := by decide
theorem test_decode_sub : decode [0b10000001, 0b00100101] = .ok (.subVxVy 1 2) := by decide
theorem test_decode_shr : decode [0b10000001, 0b00100110] = .ok (.shrVx 1 2) := by decide
theorem test_decode_subn : decode [0b10000001, 0b00100111] = .ok (.subnVxVy 1 2) := by decide
theorem test_decode_shl : decode [0b10000001, 0b00101110] = .ok (.shlVx 1 2) := by decide
theorem test_decode_sne_reg : decode [0b10010001, 0b00100000] = .ok (.sneVxVy 1 2) := by decide
theorem test_decode_ld_index : decode [0b10100011, 0b00000000] = .ok (.ldINnn 0x300) := by decide
theorem test_decode_jp_v0 : decode [0b10110011, 0b00000001] = .ok (.jpV0Nnn 0x301) := by decide
theorem test_decode_rnd : decode [0b11000011, 0b00001111] = .ok (.rndVxKk 3 0x0F) := by decide
theorem test_decode_drw : decode [0b11010001, 0b00100011] = .ok (.drwVxVyN 1 2 3) := by decide
theorem test_decode_skp : decode [0b11100011, 0b10011110] = .ok (.skpVx 3) := by decide
theorem test_decode_sknp : decode [0b11100011, 0b10100001] = .ok (.sknpVx 3) := by decide
theorem test_decode_read_dt : decode [0b11110001, 0b00000111] = .ok (.ldVxDt 1) := by decide
theorem test_decode_key_wait : decode [0b11110011, 0b00001010] = .ok (.ldVxK 3) := by decide
theorem test_decode_set_dt : decode [0b11110001, 0b00010101] = .ok (.ldDtVx 1) := by decide
theorem test_decode_set_st : decode [0b11110001, 0b00011000] = .ok (.ldStVx 1) := by decide
theorem test_decode_add_index : decode [0b11110001, 0b00011110] = .ok (.addIVx 1) := by decide
theorem test_decode_glyph : decode [0b11110001, 0b00101001] = .ok (.ldFVx 1) := by decide
theorem test_decode_digits : decode [0b11110001, 0b00110011] = .ok (.ldBVx 1) := by decide
theorem test_decode_store : decode [0b11110001, 0b01010101] = .ok (.ldMemVx 1) := by decide
theorem test_decode_load : decode [0b11110010, 0b01100101] = .ok (.ldVxMem 2) := by decide

/-- 95_test_vectors.md V-C7: words one step away from an instruction. -/
theorem test_decode_refuses_neighbours :
    ([0x00E1#16, 0x00EF#16, 0x0FFF#16, 0x00FD#16, 0x5011#16, 0x8008#16, 0x800F#16, 0x9001#16]
      ++ [0xE000#16, 0xE09F#16, 0xF000#16, 0xF0FF#16, 0xF075#16, 0xF11F#16]).all
      (fun op => decodeWord op == .error (.unrecognized op)) = true := by decide

theorem test_decode_refuses_one_byte : decode [0x60] = .error .truncated := by decide

/-- The masks and matches of the opcode table, in its order. -/
theorem test_patterns_are_the_table :
    opcodePatterns.map (fun p => (p.mask.toNat, p.value.toNat)) =
      [(0xFFFF, 0x00E0), (0xFFFF, 0x00EE), (0xF000, 0x1000), (0xF000, 0x2000), (0xF000, 0x3000)]
      ++ [(0xF000, 0x4000), (0xF00F, 0x5000), (0xF000, 0x6000), (0xF000, 0x7000), (0xF00F, 0x8000)]
      ++ [(0xF00F, 0x8001), (0xF00F, 0x8002), (0xF00F, 0x8003), (0xF00F, 0x8004), (0xF00F, 0x8005)]
      ++ [(0xF00F, 0x8006), (0xF00F, 0x8007), (0xF00F, 0x800E), (0xF00F, 0x9000), (0xF000, 0xA000)]
      ++ [(0xF000, 0xB000), (0xF000, 0xC000), (0xF000, 0xD000), (0xF0FF, 0xE09E), (0xF0FF, 0xE0A1)]
      ++ [(0xF0FF, 0xF007), (0xF0FF, 0xF00A), (0xF0FF, 0xF015), (0xF0FF, 0xF018), (0xF0FF, 0xF01E)]
      ++ [(0xF0FF, 0xF029), (0xF0FF, 0xF033), (0xF0FF, 0xF055), (0xF0FF, 0xF065)] := by decide

/-- Any two rows differ in a bit that both fix, so no word matches two of them. -/
theorem test_patterns_are_disjoint :
    opcodePatterns.Pairwise (fun p q => (p.mask &&& q.mask &&& (p.value ^^^ q.value)) ≠ 0) := by
  decide

/-! ### One step (spec/95_test_vectors.md) -/

/-- The state after reset with the instruction `w` at `pc` and these registers. -/
def loaded (w : Nat) (regs : List (Reg × Byte)) : State :=
  regs.foldl (fun s p => s.setReg p.1 p.2) (State.reset.withFetchWord 16 w)

/-- The same with bytes in memory and the index at them. -/
def loadedAt (w : Nat) (regs : List (Reg × Byte)) (a : Nat) (bytes : List Byte) : State :=
  let s := loaded w regs
  { s with mem := s.mem.writeBytes a bytes, I := BitVec.ofNat 16 a }

/-- What `f` shows of the state after one step. -/
def after {α : Type} (s : State) (f : State → α) : Option α :=
  match step s with
  | .next t => some (f t)
  | .fault _ => none
  | .refused _ => none

/-- The halt latch, the cause, the events and `pc`. -/
def faultView (t : State) : Bool × Nat × List Event × Word :=
  (t.halted, t.cause.toNat, t.events, t.pc)

/-- V-C2. -/
theorem test_step_last_word :
    after { loaded 0x6A11 [] with pc := 0xFFE, mem := [(0xFFE, 0x6A), (0xFFF, 0x11)] }
      (fun t => (t.reg 10, t.pc, t.halted)) = some (0x11, 0x1000, false) := by decide
/-- V-C4. -/
theorem test_step_fetch_fault :
    after { loaded 0x6A11 [] with pc := 0xFFF } faultView
      = some (true, 1, [.fault 1 0xFFF], 0xFFF) := by decide
/-- V-C6. -/
theorem test_step_unrecognized :
    after (loaded 0x0000 [(VF, 1)]) (fun t => (t.pc, t.events, t.reg VF))
      = some (0x202, [.decodeWarning 0x0000 0x200], 1) := by decide
/-- V-C5. -/
theorem test_tick_while_halted :
    after { loaded 0 [] with halted := true, cause := 1, DT := 3, ST := 1, schedule := [.tick] }
      (fun t => (t.DT, t.ST, t.events)) = some (2, 0, [.soundStop]) := by decide

/-- V-D16. -/
theorem test_cls_sets_dirty :
    after { loaded 0x00E0 [] with fb := Vector.replicate 32 1 } (fun t => (t.fb, t.dirty))
      = some (Vector.replicate 32 0, true) := by decide
/-- V-F4. -/
theorem test_ret_from_full_stack :
    after { loaded 0x00EE [] with sp := 16, stack := (Vector.replicate 16 0).set 15 0x0ABC }
      (fun t => (t.pc, t.sp.val, t.stack[15])) = some (0x0ABC, 15, 0x0ABC) := by decide
/-- V-F3. -/
theorem test_ret_underflow :
    after (loaded 0x00EE []) faultView = some (true, 3, [.fault 3 0x200], 0x200) := by decide
/-- V-F1. -/
theorem test_jp : after (loaded 0x1FFF []) (fun t => t.pc) = some 0xFFF := by decide
/-- V-F5. -/
theorem test_call_from_last_word :
    after { loaded 0 [] with pc := 0xFFE, mem := [(0xFFE, 0x2A), (0xFFF, 0xBC)] }
      (fun t => (t.stack[0], t.sp.val, t.pc)) = some (0x1000, 1, 0xABC) := by decide
/-- V-F6. -/
theorem test_call_overflow :
    after { loaded 0x2300 [] with sp := 16 } faultView
      = some (true, 2, [.fault 2 0x200], 0x200) := by decide
/-- V-F10. -/
theorem test_se_imm : after (loaded 0x3012 [(0, 0x12)]) (fun t => t.pc) = some 0x204 := by decide
/-- V-F12. -/
theorem test_sne_imm_full_byte :
    after (loaded 0x40FF [(0, 0x0F)]) (fun t => t.pc) = some 0x204 := by decide
/-- V-F11. -/
theorem test_sne_imm_equal :
    after (loaded 0x4012 [(0, 0x12)]) (fun t => t.pc) = some 0x202 := by decide
/-- V-F13. -/
theorem test_se_reg : after (loaded 0x5010 []) (fun t => t.pc) = some 0x204 := by decide
/-- V-F14. -/
theorem test_sne_reg : after (loaded 0x9010 [(0, 1)]) (fun t => t.pc) = some 0x204 := by decide
/-- V-F15. -/
theorem test_sne_reg_same : after (loaded 0x9000 [(0, 1)]) (fun t => t.pc) = some 0x202 := by decide
/-- V-F8. -/
theorem test_jp_v0_no_wrap :
    after (loaded 0xBFFF [(0, 0xFF)]) (fun t => (t.pc, t.halted)) = some (0x10FE, false) := by decide

/-- S1b. -/
theorem test_ld_imm : after (loaded 0x6FFF []) (fun t => (t.reg VF, t.pc)) = some (0xFF, 0x202) := by
  decide
/-- V-A2. -/
theorem test_add_imm_no_flag :
    after (loaded 0x7001 [(0, 0xFF), (VF, 1)]) (fun t => (t.reg 0, t.reg VF)) = some (0, 1) := by
  decide
/-- The example of 42_alu.md R152. -/
theorem test_copy :
    after (loaded 0x8120 [(2, 0x7E)]) (fun t => (t.reg 1, t.reg 2)) = some (0x7E, 0x7E) := by decide
/-- V-A25. -/
theorem test_or :
    after (loaded 0x8011 [(0, 0xF0), (1, 0x0F), (VF, 1)]) (fun t => (t.reg 0, t.reg VF))
      = some (0xFF, 1) := by decide
/-- By hand from 42_alu.md R154: 0b1100 and 0b1010. -/
theorem test_and :
    after (loaded 0x8012 [(0, 0x0C), (1, 0x0A), (VF, 7)]) (fun t => (t.reg 0, t.reg VF))
      = some (0x08, 7) := by decide
/-- V-A26. -/
theorem test_xor_self : after (loaded 0x8003 [(0, 0x5A)]) (fun t => t.reg 0) = some 0 := by decide
/-- V-A8. -/
theorem test_add_old_flag :
    after (loaded 0x80F4 [(0, 0x10), (VF, 1)]) (fun t => (t.reg 0, t.reg VF)) = some (0x11, 0) := by
  decide
/-- V-A6. -/
theorem test_add_into_flag :
    after (loaded 0x8F14 [(VF, 0xFF), (1, 2)]) (fun t => t.reg VF) = some 1 := by decide
/-- V-A9. -/
theorem test_sub_equal :
    after (loaded 0x8015 [(0, 5), (1, 5)]) (fun t => (t.reg 0, t.reg VF)) = some (0, 1) := by decide
/-- S3b. -/
theorem test_sub_borrow :
    after (loaded 0x8015 [(0, 3), (1, 5)]) (fun t => (t.reg 0, t.reg VF)) = some (0xFE, 0) := by
  decide
/-- V-A17. -/
theorem test_shr_ignores_second :
    after (loaded 0x8016 [(0, 4), (1, 0xFF)]) (fun t => (t.reg 0, t.reg VF)) = some (2, 0) := by
  decide
/-- V-A18. -/
theorem test_shr_flag_register : after (loaded 0x8F06 [(VF, 5)]) (fun t => t.reg VF) = some 2 := by
  decide
/-- V-A14. -/
theorem test_subn :
    after (loaded 0x8017 [(0, 3), (1, 5)]) (fun t => (t.reg 0, t.reg VF)) = some (2, 1) := by decide
/-- V-A13. -/
theorem test_subn_borrow :
    after (loaded 0x8017 [(0, 5), (1, 3)]) (fun t => (t.reg 0, t.reg VF)) = some (0xFE, 0) := by
  decide
/-- V-A20. -/
theorem test_shl_flag_is_one :
    after (loaded 0x801E [(0, 0x80)]) (fun t => (t.reg 0, t.reg VF)) = some (0, 1) := by decide
/-- V-A23. -/
theorem test_shl_flag_register : after (loaded 0x8F0E [(VF, 0x81)]) (fun t => t.reg VF) = some 2 := by
  decide
/-- V-A27. -/
theorem test_rnd_masks_input :
    after { loaded 0xC0F0 [] with schedule := [.cycle 0xAB] } (fun t => t.reg 0) = some 0xA0 := by
  decide

/-- The example of 43_index_memory.md R180. -/
theorem test_ld_index : after (loaded 0xA300 []) (fun t => t.I) = some 0x300 := by decide
/-- V-M2. -/
theorem test_add_index_wraps :
    after { loaded 0xF01E [(0, 2), (VF, 7)] with I := 0xFFFF } (fun t => (t.I, t.reg VF))
      = some (1, 7) := by decide
/-- V-M4. -/
theorem test_glyph_low_nibble : after (loaded 0xF029 [(0, 0xFF)]) (fun t => t.I) = some 0x4B := by
  decide
/-- V-M6. -/
theorem test_digits_at_end :
    after (loadedAt 0xF033 [(0, 255)] 0xFFD []) (fun t => t.mem.readBytes 0xFFD 3)
      = some [2, 5, 5] := by decide
/-- V-M7. -/
theorem test_digits_fault :
    after (loadedAt 0xF033 [(0, 255)] 0xFFE []) (fun t => (faultView t, t.mem.readBytes 0xFFE 2))
      = some ((true, 4, [.fault 4 0x1000], 0x200), [0, 0]) := by decide
/-- V-M18: the stored word is the one fetched next. -/
theorem test_store_over_next_word :
    after (loadedAt 0xF155 [(0, 0x12), (1, 0x02)] 0x202 []) (fun t => (t.fetchWord, t.I))
      = some (0x1202, 0x202) := by decide
/-- V-M13. -/
theorem test_store_fault :
    after (loadedAt 0xF055 [(0, 0x77)] 0x1000 []) faultView
      = some (true, 4, [.fault 4 0x1000], 0x200) := by decide
/-- V-M16. -/
theorem test_load_font :
    after (loaded 0xF265 [(3, 9)]) (fun t => (t.reg 0, t.reg 1, t.reg 2, t.reg 3))
      = some (0xF0, 0x90, 0x90, 9) := by decide
/-- V-M15. -/
theorem test_load_fault_info :
    after { loaded 0xF065 [] with I := 0xFFFF } faultView
      = some (true, 4, [.fault 4 0xFFFF], 0x200) := by decide

/-- V-D11. -/
theorem test_drw_position_wraps :
    after (loadedAt 0xD012 [(0, 70), (1, 33)] 0x300 [0xC0, 0x80])
      (fun t => (t.fb.pixel 6 1, t.fb.pixel 7 1, t.fb.pixel 6 2, t.fb.pixel 7 2))
      = some (true, true, true, false) := by decide
/-- V-D9. -/
theorem test_drw_fault :
    after (loadedAt 0xD01F [(VF, 1)] 0xFF2 [0xFF]) (fun t => (faultView t, t.reg VF, t.dirty))
      = some ((true, 4, [.fault 4 0x1000], 0x200), 1, false) := by decide

/-- V-K3. -/
theorem test_skp_low_nibble :
    after { loaded 0xE09E [(0, 0x15)] with key := 0x20 } (fun t => t.pc) = some 0x204 := by decide
/-- V-K2. -/
theorem test_sknp_key_up : after (loaded 0xE0A1 [(0, 5)]) (fun t => t.pc) = some 0x204 := by decide
/-- V-K4. -/
theorem test_sknp_low_nibble :
    after { loaded 0xE0A1 [(0, 0x15)] with key := 0x20 } (fun t => t.pc) = some 0x202 := by decide
/-- V-T1. -/
theorem test_read_dt :
    after { loaded 0xFF07 [] with DT := 0xC8 } (fun t => t.reg VF) = some 0xC8 := by decide
/-- V-K9. -/
theorem test_key_wait_lowest :
    after { loaded 0xFF0A [] with key := 0x88 } (fun t => (t.reg VF, t.pc)) = some (3, 0x202) := by
  decide
/-- V-K8. -/
theorem test_key_wait_none :
    after (loaded 0xF30A [(3, 9)]) (fun t => (t.reg 3, t.pc)) = some (9, 0x200) := by decide
/-- V-T2. -/
theorem test_set_dt :
    after (loaded 0xF015 [(0, 0xFF)]) (fun t => (t.DT, t.events)) = some (0xFF, []) := by decide
/-- V-T3. -/
theorem test_set_st_starts :
    after (loaded 0xF018 [(0, 1)]) (fun t => (t.ST, t.events)) = some (1, [.soundStart]) := by decide
/-- V-T5. -/
theorem test_set_st_stops :
    after { loaded 0xF018 [] with ST := 5 } (fun t => (t.ST, t.events))
      = some (0, [.soundStop]) := by decide
/-- V-K10. -/
theorem test_key_write :
    after { loaded 0 [] with schedule := [.keyWrite 0x0220] }
      (fun t => (List.range 16).filter (fun j => t.key.getLsbD j)) = some [5, 9] := by decide
/-- V-D17. -/
theorem test_frame_ack :
    after { loaded 0 [] with dirty := true, schedule := [.frameAck] } (fun t => (t.dirty, t.reply))
      = some (false, .frame 64 32 (Vector.replicate 32 0)) := by decide
/-- V-R3 and V-R4. -/
theorem test_load_at_end :
    after { State.reset with schedule := [.load [7] 0xFFF] } (fun t => (t.mem, t.reply))
      = some ([(0xFFF, 7)], .loadAccepted) ∧
    after { State.reset with schedule := [.load [7] 0x1000] } (fun t => (t.mem, t.reply))
      = some ([], .resourceFault) := by decide
/-- V-R1. -/
theorem test_reset :
    after { loaded 0x2300 [(3, 4)] with halted := true, cause := 2, sp := 16, ST := 9, schedule := [.reset] }
      (fun t => t) = some State.reset := by decide

/-! ### Witnesses: the hypotheses of the statements can be met

`witness_<Name>…` is about the hypotheses of `Obligations.<Name>`. -/

/-- A running machine about to execute a `Cycle` of its schedule, at the last fetchable word. -/
def atLastWord (hi lo : Byte) : State :=
  { State.reset with pc := 0xFFE, mem := [(0xFFE, hi), (0xFFF, lo)], schedule := [.cycle 7] }

/-- A machine halted by a stack overflow, with the display marked dirty. -/
def haltedState : State := { State.reset with halted := true, cause := 2, dirty := true }

/-- A state that meets the invariant at the top of its bounds. -/
def topState : State :=
  { State.reset with
    pc := 0x10FE, sp := 16, stack := Vector.replicate 16 0x1000, mem := [(0xFFF, 0xFF)] }

theorem witness_DecodeAndEncodeAreInverse : decodeWord 0x6A3C#16 = .ok (.ldVxKk 10 0x3C) := by decide

theorem witness_DecodeAcceptsExactlyThePatterns :
    ∃ op i, ∃ p ∈ opcodePatterns, ∃ q ∈ opcodePatterns,
      decodeWord op = .ok i ∧ p.matchesWord op = true ∧ q.matchesWord op = true :=
  ⟨0x5120#16, .seVxVy 1 2, (Instr.seVxVy 0 0).pattern, by decide, (Instr.seVxVy 0 0).pattern,
    by decide, by decide, by decide, by decide⟩

theorem witness_StepRunsTheDecodedInstruction :
    ∃ s : State, s.halted = false ∧ s.pc.toNat = 0xFFE ∧
      decode [s.mem.read s.pc.toNat, s.mem.read (s.pc.toNat + 1)] = .ok (.ldVxKk 10 0x11) ∧
      s.schedule = .cycle 7 :: [] :=
  ⟨atLastWord 0x6A 0x11, by decide⟩
theorem witness_StepRunsTheDecodedInstruction_idle :
    ∃ s : State, s.halted = false ∧ s.pc.toNat = 0 ∧
      decode [s.mem.read s.pc.toNat, s.mem.read (s.pc.toNat + 1)] = .ok (.jpNnn 0x208) ∧
      s.schedule = [] :=
  ⟨{ State.reset with pc := 0, mem := [(0, 0x12), (1, 0x08)] }, by decide⟩

theorem witness_HaltedCycleChangesNothing :
    ∃ s : State, s.halted = true ∧ s.cycleIsNext = true := ⟨haltedState, by decide⟩
theorem witness_FetchOutsideMemoryTakesFault :
    ∃ s : State, s.halted = false ∧ s.cycleIsNext = true ∧ s.pc.toNat = 0xFFF :=
  ⟨{ State.reset with pc := 0xFFF }, by decide⟩
theorem witness_UnrecognizedWordIsNoOpWithWarning :
    ∃ (s : State) (op : Word), s.halted = false ∧ s.cycleIsNext = true ∧ s.pc.toNat = 0xFFE ∧
      op = s.mem.read s.pc.toNat ++ s.mem.read (s.pc.toNat + 1) ∧
      decodeWord op = .error (.unrecognized op) :=
  ⟨atLastWord 0x50 0x11, 0x5011#16, by decide⟩
theorem witness_FaultingInstructionHasNoOtherEffect :
    ∃ (i : Instr) (s t : State), s.halted = false ∧ exec i s = .next t ∧ t.halted = true :=
  ⟨.ret, State.reset, _, by decide, rfl, by decide⟩

/-- A running state with stack depth `sp` and index `I`. -/
def withSpI (sp : Fin 17) (I : Word) : State := { State.reset with sp := sp, I := I }

/-- Each clause at its bounds: the hypotheses are that the state runs and `exec` gives a next state. -/
theorem witness_InstructionsFaultExactlyWhen :
    ∀ p ∈ [(Instr.callNnn 0x300, withSpI 16 0), (.callNnn 0x300, withSpI 15 0)]
      ++ [(.ret, withSpI 0 0), (.ret, withSpI 1 0)]
      ++ [(.drwVxVyN 0 1 15, withSpI 0 0xFF2), (.drwVxVyN 0 1 15, withSpI 0 0xFF1)]
      ++ [(.drwVxVyN 0 1 0, withSpI 0 0xFFFF), (.ldBVx 0, withSpI 0 0xFFE), (.ldBVx 0, withSpI 0 0xFFD)]
      ++ [(.ldMemVx 15, withSpI 0 0xFF1), (.ldMemVx 15, withSpI 0 0xFF0)]
      ++ [(.ldVxMem 0, withSpI 0 0x1000), (.ldVxMem 0, withSpI 0 0xFFF), (.cls, withSpI 0 0)],
    p.2.halted = false ∧ ∃ t, exec p.1 p.2 = .next t := by
  simp only [List.cons_append, List.nil_append, List.forall_mem_cons]
  exact ⟨⟨rfl, _, rfl⟩, ⟨rfl, _, rfl⟩, ⟨rfl, _, rfl⟩, ⟨rfl, _, rfl⟩, ⟨rfl, _, rfl⟩, ⟨rfl, _, rfl⟩,
    ⟨rfl, _, rfl⟩, ⟨rfl, _, rfl⟩, ⟨rfl, _, rfl⟩, ⟨rfl, _, rfl⟩, ⟨rfl, _, rfl⟩, ⟨rfl, _, rfl⟩,
    ⟨rfl, _, rfl⟩, ⟨rfl, _, rfl⟩, by simp⟩

theorem witness_StepStopsOnlyOnLateLoad :
    ∃ s : State, step s = .fault .loadAfterFirstCycle ∧ s.started = true ∧
      s.schedule = .load [1] 0x200 :: [] :=
  ⟨{ State.reset with started := true, schedule := [.load [1] 0x200] }, rfl, rfl, rfl⟩

theorem witness_JumpWritesPc :
    ∃ (s : State) (nnn : Addr12), s.halted = false ∧ s.cycleIsNext = true ∧ s.pc.toNat = 0xFFE ∧
      s.mem.read s.pc.toNat ++ s.mem.read (s.pc.toNat + 1) = encodeNNN 0x1#4 nnn ∧
      nnn.toNat = s.pc.toNat :=
  ⟨atLastWord 0x1F 0xFE, 0xFFE, by decide⟩
theorem witness_RegisterSkipsTestTheirOperands : (15#4 : Nibble) ≠ 0 := by decide
theorem witness_CallPushesReturnAddress :
    (withSpI 15 0).sp.val < 16 ∧ (withSpI 0 0).sp.val < 16 ∧ (withSpI 16 0).sp.val = 16 := by decide
theorem witness_ReturnPopsIntoPc :
    (withSpI 16 0).sp.val = 15 + 1 ∧ (withSpI 1 0).sp.val = 0 + 1 ∧ (withSpI 0 0).sp.val = 0 := by
  decide
/-- The last free entry, and an entry on each side of the one the call writes. -/
theorem witness_CallThenReturnComesBack :
    (withSpI 15 0).sp.val < 16 ∧ 14 ≠ (withSpI 15 0).sp.val ∧ 15 ≠ (withSpI 14 0).sp.val := by decide

/-- `x ≠ VF` of the sums, differences and shifts: the highest register beside `VF`. -/
theorem witness_AddRegistersSetsCarry : (14 : Reg) ≠ VF := by decide
theorem witness_SubtractSetsNoBorrow : (0 : Reg) ≠ VF := by decide
theorem witness_ReverseSubtractSetsNoBorrow : (1 : Reg) ≠ VF := by decide
theorem witness_ShiftRightMovesOneBit : (2 : Reg) ≠ VF := by decide
theorem witness_ShiftLeftMovesOneBit : (3 : Reg) ≠ VF := by decide

/-- With an input, with none, and a mask bit that is 0. -/
theorem witness_RandomByteIsMasked :
    ({ State.reset with rnd := some 0xFF } : State).rnd = some 0xFF ∧ State.reset.rnd = none ∧
    (0x7F#8).getLsbD 7 = false := by decide

theorem witness_FlagIsZeroOrOneAfterFlagWriters :
    (∃ t, exec (.addVxVy VF 1) State.reset = .next t) ∧
    (∃ t, exec (.subVxVy VF 1) State.reset = .next t) ∧
    (∃ t, exec (.subnVxVy VF 1) State.reset = .next t) ∧
    (∃ t, exec (.shrVx 14 1) State.reset = .next t ∧ (14 : Reg) ≠ VF) ∧
    (∃ t, exec (.shlVx 0 VF) State.reset = .next t ∧ (0 : Reg) ≠ VF) ∧
    (∃ t, exec (.drwVxVyN 0 1 15) (withSpI 0 0xFF1) = .next t ∧
      (withSpI 0 0xFF1).I.toNat + (15#4 : Nibble).toNat = 4096) ∧
    (∃ t, exec (.drwVxVyN 0 1 0) (withSpI 0 0xFFFF) = .next t ∧ (0#4 : Nibble) = 0) :=
  ⟨⟨_, rfl⟩, ⟨_, rfl⟩, ⟨_, rfl⟩, ⟨_, rfl, by decide⟩, ⟨_, rfl, by decide⟩, ⟨_, rfl, by decide⟩,
    ⟨_, rfl, by decide⟩⟩

theorem witness_DecimalDigitsAreStored :
    (withSpI 0 0xFFD).I.toNat + 3 = 4096 ∧ (withSpI 0 0xFFE).I.toNat + 3 = 4096 + 1 := by decide
/-- The bounds of `I` with `X = 15`, and for the unchanged addresses on both sides of the block. -/
theorem witness_RegisterBlockIsStored :
    (withSpI 0 0xFF0).I.toNat + (15 : Reg).val + 1 = 4096 ∧
    (withSpI 0 0xFF1).I.toNat + (15 : Reg).val + 1 = 4096 + 1 ∧
    0xFEF < (withSpI 0 0xFF0).effectiveAddress 0 ∧
    (withSpI 0 0xFF0).effectiveAddress 15 < 0x1000 := by decide
theorem witness_RegisterBlockIsLoaded :
    (withSpI 0 0xFFF).I.toNat + (0 : Reg).val + 1 = 4096 ∧
    (withSpI 0 0x1000).I.toNat + (0 : Reg).val + 1 = 4096 + 1 := by decide
theorem witness_StoredBlockLoadsBack :
    (withSpI 0 0xFF0).I.toNat + (15 : Reg).val + 1 ≤ 4096 := by decide
theorem witness_StoreIsSeenByNextFetch :
    ∃ (s : State) (x : Reg), 1 ≤ x.val ∧ s.I.toNat + x.val + 1 = 4096 ∧ s.I = s.pc + 2 :=
  ⟨{ State.reset with pc := 0xFFC, I := 0xFFE }, 1, by decide⟩

theorem witness_MemoriesThatReadAlikeAreEqual :
    ∃ m n : Memory, m ≠ [] ∧ m.wf ∧ n.wf ∧ ∀ a, m.read a = n.read a :=
  ⟨Memory.write [(0x300, 1)] 0x200 5, Memory.write [(0x200, 5)] 0x300 1, by decide, by decide,
    by decide, fun a => by rw [show Memory.write [(0x300, 1)] 0x200 5
      = Memory.write [(0x200, 5)] 0x300 1 by decide]⟩

theorem witness_DrawTogglesCoveredPixels :
    (0#4 : Nibble) = 0 ∧ (withSpI 0 0xFF1).I.toNat + (15#4 : Nibble).toNat = 4096 := by decide
theorem witness_DrawPastMemoryTakesFault :
    (15#4 : Nibble) ≠ 0 ∧ (withSpI 0 0xFF2).I.toNat + (15#4 : Nibble).toNat = 4096 + 1 := by decide
theorem witness_DrawTwiceRestoresDisplay :
    (0#4 : Nibble) = 0 ∧ (withSpI 0 0xFFF).I.toNat + (1#4 : Nibble).toNat = 4096 := by decide

/-- No key down; and only key 15 down, so that it is the lowest. -/
theorem witness_KeyWaitTakesLowestKey :
    (∀ j, j < 16 → State.reset.key.getLsbD j = false) ∧
    (0x8000#16).getLsbD 15 = true ∧ (∀ k, k < 15 → (0x8000#16).getLsbD k = false) ∧
    (0xFFFF#16).getLsbD 0 = true := by decide

theorem witness_TickCountsTimersDown :
    ({ haltedState with ST := 1, schedule := [.tick, .tick] } : State).schedule = .tick :: [.tick] :=
  rfl
theorem witness_KeypadAndRendererActAlone :
    ({ haltedState with schedule := [.keyWrite 0x8001] } : State).schedule = .keyWrite 0x8001 :: [] ∧
    ({ haltedState with schedule := [.frameAck] } : State).schedule = .frameAck :: [] := ⟨rfl, rfl⟩
/-- A load that ends at the last byte, and one a byte longer. -/
theorem witness_LoadWritesImageOrRefuses :
    ∃ s : State, s.started = false ∧ s.schedule = .load [1, 2] 0xFFE :: [.load [1, 2] 0xFFF] ∧
      0xFFE + [1#8, 2#8].length = 4096 ∧ 4096 < 0xFFF + [1#8, 2#8].length :=
  ⟨{ State.reset with schedule := [.load [1, 2] 0xFFE, .load [1, 2] 0xFFF] }, by decide⟩
theorem witness_ResetGivesResetState :
    ({ haltedState with schedule := [.reset] } : State).schedule = .reset :: [] := rfl

theorem witness_InstructionsWriteOnlyTheirState :
    ∃ (i : Instr) (s t : State), exec i s = .next t ∧ (∀ x, i ≠ .ldBVx x) ∧ (∀ x, i ≠ .ldMemVx x) ∧
      i ≠ .cls ∧ (∀ x y n, i ≠ .drwVxVyN x y n) ∧ (∀ nnn, i ≠ .ldINnn nnn) ∧ (∀ x, i ≠ .addIVx x) ∧
      (∀ x, i ≠ .ldFVx x) ∧ i ≠ .ret ∧ (∀ nnn, i ≠ .callNnn nnn) ∧ (∀ x, i ≠ .ldDtVx x) ∧
      (∀ x, i ≠ .ldStVx x) ∧ (∀ x kk, i ≠ .rndVxKk x kk) :=
  ⟨.addVxVy VF VF, State.reset, _, rfl, by simp⟩
theorem witness_HaltLatchHoldsUntilReset :
    ∃ s t : State, step s = .next t ∧ s.resetIsNext = false ∧ s.halted = true ∧ s.dirty = true ∧
      s.schedule.head? ≠ some .frameAck :=
  ⟨haltedState, _, rfl, by decide, by decide, by decide, by decide⟩
theorem witness_OtherAgentsLeaveInterpreterAlone :
    ∃ s t : State, step s = .next t ∧ s.cycleIsNext = false ∧ s.resetIsNext = false ∧
      ∀ bytes offset, s.schedule.head? ≠ some (.load bytes offset) :=
  ⟨{ State.reset with schedule := [.tick] }, _, rfl, by decide, by decide, by simp⟩
theorem witness_OnlyRandomReadsTheRandomByte :
    ∃ (i : Instr) (s t : State), (∀ x kk, i ≠ .rndVxKk x kk) ∧ exec i s = .next t :=
  ⟨.ldVxKk 0 1, State.reset, _, by simp, rfl⟩
theorem witness_SoundEventsAreLevelEdges :
    ∃ s t : State, step s = .next t ∧ s.resetIsNext = false ∧ s.soundOn = true ∧ t.soundOn = false :=
  ⟨{ State.reset with ST := 1, schedule := [.tick] }, _, rfl, by decide, by decide, by decide⟩
theorem witness_TransitionEmitsAtMostOneEvent :
    ∃ s t : State, step s = .next t ∧ t.events.length = 1 :=
  ⟨loaded 0xF018 [(0, 1)], _, rfl, by decide⟩
theorem witness_EveryStepKeepsTheInvariant : ∃ s t : State, Inv s ∧ step s = .next t :=
  ⟨topState, _, ⟨by decide, by decide, by decide, by decide, by decide⟩, rfl⟩

end Sys2Proof.Tests
end

section
/-! Decoding and the opcode map (spec/30_encoding.md R94, R95): a decoded word matches its instruction's
pattern, and a word that matches an instruction's pattern decodes to an instruction of that same pattern.
That the patterns are disjoint follows, because the decoder gives a word one answer. -/

namespace Sys2Proof.Proofs

open Sys2Proof

/-! ### A word is its digits -/

theorem fieldKK_eq_append (op : Word) : fieldKK op = nibbleY op ++ fieldN op := by
  apply BitVec.eq_of_toNat_eq
  rw [toNat_append_add, toNat_fieldKK, toNat_nibbleY, toNat_fieldN]; omega

theorem eq_append_digits (op : Word) :
    op = fieldMajor op ++ nibbleX op ++ nibbleY op ++ fieldN op := by
  apply BitVec.eq_of_toNat_eq
  rw [toNat_append_add, toNat_append_add, toNat_append_add, toNat_fieldMajor, toNat_nibbleX,
    toNat_nibbleY, toNat_fieldN]
  omega

/-! ### Matching, digit by digit -/

theorem digitMatches_iff (d : Option Nibble) (n : Nibble) :
    digitMatches d n = true ↔ ∀ l ∈ d, n = l := by
  cases d with
  | none => simp [digitMatches]
  | some l => simp [digitMatches, eq_comm (a := l)]

theorem matchesWord_iff {p : Pattern} {op : Word} : p.matchesWord op = true ↔
    (∀ l ∈ p.d3, fieldMajor op = l) ∧ (∀ l ∈ p.d2, nibbleX op = l) ∧
    (∀ l ∈ p.d1, nibbleY op = l) ∧ (∀ l ∈ p.d0, fieldN op = l) := by
  simp only [Pattern.matchesWord, Bool.and_eq_true, digitMatches_iff, and_assoc]

/-! ### What matches, decodes -/

/-- The cases are the shapes of the rows: the whole word, the first digit alone, the first and the
last, the first and the low byte. -/
theorem exists_decodeWord_of_matches {op : Word} (i : Instr)
    (h : i.pattern.matchesWord op = true) :
    ∃ j, decodeWord op = .ok j ∧ j.pattern = i.pattern := by
  obtain ⟨hm, hx, hy, hn⟩ := matchesWord_iff.mp h
  cases i
  case cls | ret =>
    have hop := eq_append_digits op
    rw [hm _ rfl, hx _ rfl, hy _ rfl, hn _ rfl] at hop
    subst hop
    exact ⟨_, rfl, rfl⟩
  case jpNnn | callNnn | seVxKk | sneVxKk | ldVxKk | addVxKk | ldINnn | jpV0Nnn | rndVxKk
      | drwVxVyN =>
    simp [decodeWord, hm _ rfl, Instr.pattern]
  case seVxVy | sneVxVy | ldVxVy | orVxVy | andVxVy | xorVxVy | addVxVy | subVxVy | shrVx
      | subnVxVy | shlVx =>
    simp [decodeWord, decodeFamily8, hm _ rfl, hn _ rfl, Instr.pattern]
  case skpVx | sknpVx | ldVxDt | ldVxK | ldDtVx | ldStVx | addIVx | ldFVx | ldBVx | ldMemVx
      | ldVxMem =>
    have hkk := fieldKK_eq_append op
    rw [hy _ rfl, hn _ rfl] at hkk
    simp [decodeWord, decodeFamilyE, decodeFamilyF, hm _ rfl, hkk, Instr.pattern]

/-! ### What decodes, matches -/

theorem decodeFamily0_matches {op : Word} {i : Instr} (h : decodeFamily0 op = .ok i) :
    i.pattern.matchesWord op = true := by
  unfold decodeFamily0 at h
  split_ifs at h with hcls hret <;> cases h
  · rw [hcls]; exact Laws.WordFormat.cls.2
  · rw [hret]; exact Laws.WordFormat.ret.2

theorem decodeFamily8_matches {op : Word} {i : Instr} (hm : fieldMajor op = 0x8#4)
    (h : decodeFamily8 op = .ok i) : i.pattern.matchesWord op = true := by
  unfold decodeFamily8 at h
  split at h <;> cases h
  all_goals
    rename_i hn
    simp [matchesWord_iff, Instr.pattern, hm, ← BitVec.toNat_inj, hn]

/-- A literal low byte is the last two digits of a row of the families E and F. -/
theorem matchesWord_of_byte {op : Word} {m : Nibble} {k : Nat} (hm : fieldMajor op = m)
    (hkk : (fieldKK op).toNat = k) :
    Pattern.matchesWord ⟨some m, none, some (BitVec.ofNat 4 (k / 16)), some (BitVec.ofNat 4 k)⟩ op
      = true := by
  rw [toNat_fieldKK] at hkk
  have hy : nibbleY op = BitVec.ofNat 4 (k / 16) := by
    apply BitVec.eq_of_toNat_eq; rw [toNat_nibbleY, BitVec.toNat_ofNat]; omega
  have hn : fieldN op = BitVec.ofNat 4 k := by
    apply BitVec.eq_of_toNat_eq; rw [toNat_fieldN, BitVec.toNat_ofNat]; omega
  simp [matchesWord_iff, hm, hy, hn]

theorem decodeFamilyE_matches {op : Word} {i : Instr} (hm : fieldMajor op = 0xE#4)
    (h : decodeFamilyE op = .ok i) : i.pattern.matchesWord op = true := by
  unfold decodeFamilyE at h
  split at h <;> cases h
  all_goals
    rename_i hkk
    exact matchesWord_of_byte hm hkk

theorem decodeFamilyF_matches {op : Word} {i : Instr} (hm : fieldMajor op = 0xF#4)
    (h : decodeFamilyF op = .ok i) : i.pattern.matchesWord op = true := by
  unfold decodeFamilyF at h
  split at h <;> cases h
  all_goals
    rename_i hkk
    exact matchesWord_of_byte hm hkk

/-- By the first digit: the families 0, 8, E and F have their own lemmas, 5 and 9 check the last digit,
and the first digit alone decides the rest. -/
theorem decodeWord_matches {op : Word} {i : Instr} (h : decodeWord op = .ok i) :
    i.pattern.matchesWord op = true := by
  unfold decodeWord at h
  split at h
  case h_1 => exact decodeFamily0_matches h
  case h_9 hm => exact decodeFamily8_matches (BitVec.eq_of_toNat_eq hm) h
  case h_15 hm => exact decodeFamilyE_matches (BitVec.eq_of_toNat_eq hm) h
  case h_16 hm => exact decodeFamilyF_matches (BitVec.eq_of_toNat_eq hm) h
  case h_6 hm | h_10 hm =>
    split at h <;> cases h
    rename_i hn
    simp [matchesWord_iff, Instr.pattern, ← BitVec.toNat_inj, hm, hn]
  case h_17 => cases h
  all_goals
    rename_i hm
    cases h
    simp [matchesWord_iff, Instr.pattern, ← BitVec.toNat_inj, hm]

/-! ### The list of the patterns -/

theorem mem_opcodePatterns_iff (p : Pattern) : p ∈ opcodePatterns ↔ ∃ i : Instr, i.pattern = p := by
  constructor
  · intro hp
    obtain ⟨i, -, rfl⟩ := List.mem_map.mp hp
    exact ⟨i, rfl⟩
  · rintro ⟨i, rfl⟩
    cases i <;> simp only [Instr.pattern] <;> decide

/-- Settles O2: a pattern of the list is some instruction's pattern; what decodes matches, what matches
decodes; and two patterns that match one word are both the pattern of what it decodes to. -/
theorem decodeAcceptsExactlyThePatterns : Obligations.DecodeAcceptsExactlyThePatterns := by
  unfold Obligations.DecodeAcceptsExactlyThePatterns
  refine ⟨fun op => ⟨?_, ?_⟩, fun op i h => decodeWord_matches h, ?_⟩
  · rintro ⟨i, h⟩
    exact ⟨i.pattern, (mem_opcodePatterns_iff _).mpr ⟨i, rfl⟩, decodeWord_matches h⟩
  · rintro ⟨p, hp, hmatch⟩
    obtain ⟨i, rfl⟩ := (mem_opcodePatterns_iff p).mp hp
    obtain ⟨j, hj, -⟩ := exists_decodeWord_of_matches i hmatch
    exact ⟨j, hj⟩
  · intro op p hp q hq hmatchp hmatchq
    obtain ⟨i, rfl⟩ := (mem_opcodePatterns_iff p).mp hp
    obtain ⟨i', rfl⟩ := (mem_opcodePatterns_iff q).mp hq
    obtain ⟨j, hj, hji⟩ := exists_decodeWord_of_matches i hmatchp
    obtain ⟨j', hj', hji'⟩ := exists_decodeWord_of_matches i' hmatchq
    obtain rfl : j = j' := Except.ok.inj (hj.symm.trans hj')
    exact hji.symm.trans hji'

end Sys2Proof.Proofs
end

section
/-! The unrecognized word (spec/40_cycle.md R116): a step with a `Cycle` next runs the cycle, a cycle
whose word does not decode warns, and the warning moves `pc` past the word and adds its event. -/

namespace Sys2Proof.Proofs

open Sys2Proof Sys2Proof.Machine

/-! ### The step and the cycle, forwards -/

/-- Both ways a `Cycle` comes next: nothing is scheduled, or a `Cycle` is. -/
theorem step_of_cycleIsNext {s : State} (h : s.cycleIsNext = true) :
    ∃ rest o, step s = runCycle (s.beginCycle rest o) := by
  unfold State.cycleIsNext at h
  split at h
  case h_1 hs => exact ⟨[], none, by rw [step, hs]⟩
  case h_2 rnd rest hs => exact ⟨rest, some rnd, by rw [step, hs]⟩
  all_goals cases h

theorem runCycle_of_undecodable {s : State} {r : Reject} (hrun : s.halted = false)
    (hpc : s.pc.toNat ≤ 0xFFE) (hd : decodeWord s.fetchWord = .error r) :
    runCycle s = .next (s.warnUnrecognized s.fetchWord) := by
  simp [runCycle, hrun, (fetchable_iff s.pc).mpr hpc, hd]

@[simp] theorem reg_beginCycle (s : State) (rest : List Transition) (o : Option Byte) (r : Reg) :
    (s.beginCycle rest o).reg r = s.reg r := rfl

/-! ### The warning -/

/-- From a `pc` at which a fetch is legal, `npc` does not wrap. -/
theorem toNat_npc {s : State} (hpc : s.pc.toNat ≤ 0xFFE) : s.npc.toNat = s.pc.toNat + 2 := by
  unfold State.npc; bv_omega

/-- The frame of a cycle that warns: the warning writes `pc` and the events, the start of the cycle
the model's own fields. -/
theorem sameBut_warnUnrecognized_beginCycle (s : State) (rest : List Transition) (o : Option Byte)
    (op : Word) :
    SameBut [.pc, .started, .schedule, .rnd, .events, .reply] s
      ((s.beginCycle rest o).warnUnrecognized op) := by
  simp [SameBut, State.warnUnrecognized]

/-- Settles O8: the step is a cycle on the begun state, whose word, `pc` and halt latch are those of
`s`; the cycle warns. -/
theorem unrecognizedWordIsNoOpWithWarning : Obligations.UnrecognizedWordIsNoOpWithWarning := by
  unfold Obligations.UnrecognizedWordIsNoOpWithWarning
  rintro s op hrun hnext hpc rfl hd
  obtain ⟨rest, o, hstep⟩ := step_of_cycleIsNext hnext
  have hwarn : step s = .next ((s.beginCycle rest o).warnUnrecognized s.fetchWord) :=
    hstep.trans (runCycle_of_undecodable hrun hpc hd)
  exact ⟨_, hwarn, toNat_npc hpc, rfl, hrun, sameBut_warnUnrecognized_beginCycle s rest o _⟩

end Sys2Proof.Proofs
end

section
/-! Jumps and skips on an immediate (spec/41_flow.md R131, R133, R134, R137): each writes `pc` and
nothing else, so one frame lemma of `goto` serves them all; what is left is the target's arithmetic. -/

namespace Sys2Proof.Proofs

open Sys2Proof Sys2Proof.Machine

/-! ### The operands as numbers -/

@[simp] theorem toNat_zext16 (nnn : Addr12) : (zext16 nnn).toNat = nnn.toNat :=
  BitVec.toNat_setWidth_of_le (by decide)

@[simp] theorem toNat_byteToWord (b : Byte) : (byteToWord b).toNat = b.toNat :=
  BitVec.toNat_setWidth_of_le (by decide)

/-- The largest sum of `BNNN` is 0x10FE, so 16 bits hold it (R137). -/
theorem toNat_zext16_add_byteToWord (nnn : Addr12) (b : Byte) :
    (zext16 nnn + byteToWord b).toNat = nnn.toNat + b.toNat := by
  have hnnn := nnn.isLt
  have hb := b.isLt
  rw [BitVec.toNat_add, toNat_zext16, toNat_byteToWord]; omega

/-! ### The words -/

theorem decodeWord_encode_jpNnn (nnn : Addr12) :
    decodeWord (encodeNNN 0x1#4 nnn) = .ok (.jpNnn nnn) := by simp [decodeWord]

theorem decodeWord_encode_jpV0Nnn (nnn : Addr12) :
    decodeWord (encodeNNN 0xB#4 nnn) = .ok (.jpV0Nnn nnn) := by simp [decodeWord]

theorem decodeWord_encode_seVxKk (x : Reg) (kk : Byte) :
    decodeWord (encodeXKK 0x3#4 x kk) = .ok (.seVxKk x kk) := by simp [decodeWord]

theorem decodeWord_encode_sneVxKk (x : Reg) (kk : Byte) :
    decodeWord (encodeXKK 0x4#4 x kk) = .ok (.sneVxKk x kk) := by simp [decodeWord]

/-! ### The meanings -/

theorem exec_jpNnn (nnn : Addr12) (s : State) :
    exec (.jpNnn nnn) s = .next (s.goto (zext16 nnn)) := rfl

theorem exec_jpV0Nnn (nnn : Addr12) (s : State) :
    exec (.jpV0Nnn nnn) s = .next (s.goto (zext16 nnn + byteToWord (s.reg V0))) := rfl

theorem exec_seVxKk (x : Reg) (kk : Byte) (s : State) :
    exec (.seVxKk x kk) s = skipIf (s.reg x == kk) s := rfl

theorem exec_sneVxKk (x : Reg) (kk : Byte) (s : State) :
    exec (.sneVxKk x kk) s = skipIf (s.reg x != kk) s := rfl

/-- The frame of a jump or skip. -/
theorem sameBut_goto (s : State) (w : Word) : SameBut [.pc] s (s.goto w) := by
  simp [SameBut]

/-- A skip moves `pc` past one more word when its condition holds, and writes nothing else (R138). -/
theorem skipIf_spec (c : Bool) (s : State) :
    ∃ t, skipIf c s = .next t ∧ t.pc = (if c then s.pc + 4 else s.pc + 2) ∧ SameBut [.pc] s t := by
  refine ⟨_, skipIf_next c s, ?_, sameBut_goto s _⟩
  rw [State.goto_pc, BitVec.add_assoc]; rfl

/-! ### A cycle whose word decodes -/

theorem runCycle_of_decodable {s : State} {i : Instr} (hrun : s.halted = false)
    (hpc : s.pc.toNat ≤ 0xFFE) (hd : decodeWord s.fetchWord = .ok i) : runCycle s = exec i s := by
  simp [runCycle, hrun, (fetchable_iff s.pc).mpr hpc, hd]

/-- The start of a cycle moves the model's own fields alone. -/
theorem sameBut_beginCycle (s : State) (rest : List Transition) (o : Option Byte) :
    SameBut [.started, .schedule, .rnd, .events, .reply] s (s.beginCycle rest o) := by
  simp [SameBut]

/-- A jump to the address it stands at leaves the state as it is (R131). -/
theorem exec_jpNnn_self {s : State} {nnn : Addr12} (hself : nnn.toNat = s.pc.toNat) :
    exec (.jpNnn nnn) s = .next s := by
  have htarget : zext16 nnn = s.pc := BitVec.eq_of_toNat_eq ((toNat_zext16 nnn).trans hself)
  rw [exec_jpNnn, htarget]; rfl

/-! ### The statements -/

/-- Settles O12: the jump writes its operand to `pc`. A cycle at a jump to itself is the start of the
cycle and then that jump, which leaves the begun state as it is. -/
theorem jumpWritesPc : Obligations.JumpWritesPc := by
  unfold Obligations.JumpWritesPc
  refine ⟨fun s nnn => ⟨decodeWord_encode_jpNnn nnn, _, exec_jpNnn nnn s, toNat_zext16 nnn,
    sameBut_goto s _⟩, fun s nnn hrun hnext hpc hword hself => ?_⟩
  obtain ⟨rest, o, hstep⟩ := step_of_cycleIsNext hnext
  have hd : decodeWord (s.beginCycle rest o).fetchWord = .ok (.jpNnn nnn) :=
    (congrArg decodeWord hword).trans (decodeWord_encode_jpNnn nnn)
  have hstay : step s = .next (s.beginCycle rest o) := calc
    step s = runCycle (s.beginCycle rest o) := hstep
    _ = exec (.jpNnn nnn) (s.beginCycle rest o) := runCycle_of_decodable hrun hpc hd
    _ = .next (s.beginCycle rest o) := exec_jpNnn_self hself
  exact ⟨_, hstay, sameBut_beginCycle s rest o⟩

/-- Settles O13: the target is the sum on 16 bits, which does not wrap. -/
theorem indexedJumpAddsV0 : Obligations.IndexedJumpAddsV0 := by
  unfold Obligations.IndexedJumpAddsV0
  exact fun s nnn => ⟨decodeWord_encode_jpV0Nnn nnn, _, exec_jpV0Nnn nnn s,
    toNat_zext16_add_byteToWord nnn (s.reg V0), sameBut_goto s _⟩

/-- Settles O14: both are the skip, on the comparison of the register with the immediate and on its
negation. -/
theorem immediateSkipsTestTheirOperands : Obligations.ImmediateSkipsTestTheirOperands := by
  unfold Obligations.ImmediateSkipsTestTheirOperands
  refine fun s x kk => ⟨decodeWord_encode_seVxKk x kk, decodeWord_encode_sneVxKk x kk, ?_, ?_⟩
  · simpa only [exec_seVxKk, beq_iff_eq] using skipIf_spec (s.reg x == kk) s
  · simpa only [exec_sneVxKk, bne_iff_ne, ite_not] using skipIf_spec (s.reg x != kk) s

end Sys2Proof.Proofs
end

section
/-! Load, add, copy and subtract on registers (spec/42_alu.md R150 to R152, R156, R157, R159): each is
one of two shapes, a register write or a register write and then the flag, so one lemma per shape says
what is written and what is left; each instruction adds its value and its flag as numbers. -/

namespace Sys2Proof.Proofs

open Sys2Proof Sys2Proof.Machine

/-! ### The words -/

theorem decodeWord_encode_ldVxKk (x : Reg) (kk : Byte) :
    decodeWord (encodeXKK 0x6#4 x kk) = .ok (.ldVxKk x kk) := by simp [decodeWord]

theorem decodeWord_encode_addVxKk (x : Reg) (kk : Byte) :
    decodeWord (encodeXKK 0x7#4 x kk) = .ok (.addVxKk x kk) := by simp [decodeWord]

/-- Family 8 is decided by the last digit. -/
theorem decodeWord_encodeXYN_family8 (x y : Reg) (n : Nibble) :
    decodeWord (encodeXYN 0x8#4 x y n) = decodeFamily8 (encodeXYN 0x8#4 x y n) := by
  simp [decodeWord]

theorem decodeWord_encode_ldVxVy (x y : Reg) :
    decodeWord (encodeXYN 0x8#4 x y 0x0#4) = .ok (.ldVxVy x y) := by
  simp [decodeWord_encodeXYN_family8, decodeFamily8]

theorem decodeWord_encode_addVxVy (x y : Reg) :
    decodeWord (encodeXYN 0x8#4 x y 0x4#4) = .ok (.addVxVy x y) := by
  simp [decodeWord_encodeXYN_family8, decodeFamily8]

theorem decodeWord_encode_subVxVy (x y : Reg) :
    decodeWord (encodeXYN 0x8#4 x y 0x5#4) = .ok (.subVxVy x y) := by
  simp [decodeWord_encodeXYN_family8, decodeFamily8]

theorem decodeWord_encode_subnVxVy (x y : Reg) :
    decodeWord (encodeXYN 0x8#4 x y 0x7#4) = .ok (.subnVxVy x y) := by
  simp [decodeWord_encodeXYN_family8, decodeFamily8]

/-! ### The meanings -/

theorem exec_ldVxKk (x : Reg) (kk : Byte) (s : State) : exec (.ldVxKk x kk) s = writeReg x kk s := rfl

theorem exec_addVxKk (x : Reg) (kk : Byte) (s : State) :
    exec (.addVxKk x kk) s = writeReg x (BitVec.ofNat 8 ((s.reg x).toNat + kk.toNat)) s := rfl

theorem exec_ldVxVy (x y : Reg) (s : State) : exec (.ldVxVy x y) s = writeReg x (s.reg y) s := rfl

theorem exec_addVxVy (x y : Reg) (s : State) :
    exec (.addVxVy x y) s =
      writeRegThenFlag x (BitVec.ofNat 8 ((s.reg x).toNat + (s.reg y).toNat))
        (carryFlag (s.reg x) (s.reg y)) s := rfl

theorem exec_subVxVy (x y : Reg) (s : State) :
    exec (.subVxVy x y) s =
      writeRegThenFlag x (BitVec.ofInt 8 ((s.reg x).toNat - (s.reg y).toNat))
        (notBorrowFlag (s.reg x) (s.reg y)) s := rfl

theorem exec_subnVxVy (x y : Reg) (s : State) :
    exec (.subnVxVy x y) s =
      writeRegThenFlag x (BitVec.ofInt 8 ((s.reg y).toNat - (s.reg x).toNat))
        (notBorrowFlag (s.reg y) (s.reg x)) s := rfl

/-! ### Values and flags as numbers -/

theorem toNat_ofInt_byte (z : Int) : ((BitVec.ofInt 8 z).toNat : Int) = z % 256 := by
  rw [BitVec.toNat_ofInt]
  exact Int.toNat_of_nonneg (Int.emod_nonneg z (by decide))

theorem carryFlag_eq_ite (a b : Byte) :
    carryFlag a b = if 255 < a.toNat + b.toNat then 1 else 0 := by
  simp [carryFlag, flagByte]

theorem notBorrowFlag_eq_ite (a b : Byte) :
    notBorrowFlag a b = if b.toNat ≤ a.toNat then 1 else 0 := by
  simp [notBorrowFlag, flagByte]

/-! ### The two shapes of a write -/

/-- A register write writes its register, moves `pc` past the instruction and leaves the rest. -/
theorem writeReg_spec (x : Reg) (b : Byte) (s : State) :
    ∃ t, writeReg x b s = .next t ∧ t.reg x = b ∧ RegsSameBut [x] s t ∧ t.pc = s.pc + 2 ∧
      SameBut [.v, .pc] s t := by
  refine ⟨_, writeReg_next x b s, by simp, fun r hr => ?_, rfl, by simp [SameBut]⟩
  have hrx : r ≠ x := by simpa using hr
  simp [hrx]

/-- A register write followed by the flag: the flag stands, also where `VF` is the register written
(R163); the result stands in every other register. -/
theorem writeRegThenFlag_spec (x : Reg) (b f : Byte) (s : State) :
    ∃ t, writeRegThenFlag x b f s = .next t ∧ (x ≠ VF → t.reg x = b) ∧ t.reg VF = f ∧
      RegsSameBut [x, VF] s t ∧ t.pc = s.pc + 2 ∧ SameBut [.v, .pc] s t := by
  refine ⟨_, writeRegThenFlag_next x b f s, fun hx => ?_, by simp, fun r hr => ?_, rfl,
    by simp [SameBut]⟩
  · simp [hx]
  · obtain ⟨hrx, hrf⟩ : r ≠ x ∧ r ≠ VF := by simpa using hr
    simp [hrx, hrf]

/-- The subtractions of `8XY5` and `8XY7`, which differ in the order of their operands alone. -/
theorem writeDifference_spec (x : Reg) (a b : Byte) (s : State) :
    ∃ t, writeRegThenFlag x (BitVec.ofInt 8 (a.toNat - b.toNat)) (notBorrowFlag a b) s = .next t ∧
      (x ≠ VF → ((t.reg x).toNat : Int) = (a.toNat - b.toNat : Int) % 256) ∧
      t.reg VF = (if b.toNat ≤ a.toNat then 1 else 0) ∧
      RegsSameBut [x, VF] s t ∧ t.pc = s.pc + 2 ∧ SameBut [.v, .pc] s t := by
  obtain ⟨t, ht, hreg, hflag, hframe⟩ := writeRegThenFlag_spec x _ (notBorrowFlag a b) s
  exact ⟨t, ht, fun hx => by rw [hreg hx, toNat_ofInt_byte], hflag.trans (notBorrowFlag_eq_ite a b),
    hframe⟩

/-! ### The statements -/

/-- Settles O23: the register gets the sum modulo 256, then `VF` the carry. -/
theorem addRegistersSetsCarry : Obligations.AddRegistersSetsCarry := by
  unfold Obligations.AddRegistersSetsCarry
  intro s x y
  obtain ⟨t, ht, hreg, hflag, hframe⟩ := writeRegThenFlag_spec x
    (BitVec.ofNat 8 ((s.reg x).toNat + (s.reg y).toNat)) (carryFlag (s.reg x) (s.reg y)) s
  have hsum : x ≠ VF → (t.reg x).toNat = ((s.reg x).toNat + (s.reg y).toNat) % 256 :=
    fun hx => by rw [hreg hx, BitVec.toNat_ofNat]
  exact ⟨decodeWord_encode_addVxVy x y, t, (exec_addVxVy x y s).trans ht, hsum,
    hflag.trans (carryFlag_eq_ite _ _), hframe⟩

/-- Settles O24: the difference with `v[X]` as the minuend. -/
theorem subtractSetsNoBorrow : Obligations.SubtractSetsNoBorrow := by
  unfold Obligations.SubtractSetsNoBorrow
  intro s x y
  rw [exec_subVxVy]
  exact ⟨decodeWord_encode_subVxVy x y, writeDifference_spec x (s.reg x) (s.reg y) s⟩

/-- Settles O25: the difference with `v[Y]` as the minuend. -/
theorem reverseSubtractSetsNoBorrow : Obligations.ReverseSubtractSetsNoBorrow := by
  unfold Obligations.ReverseSubtractSetsNoBorrow
  intro s x y
  rw [exec_subnVxVy]
  exact ⟨decodeWord_encode_subnVxVy x y, writeDifference_spec x (s.reg y) (s.reg x) s⟩

/-- Settles O19: a register write of the immediate. -/
theorem loadImmediateWritesRegister : Obligations.LoadImmediateWritesRegister := by
  unfold Obligations.LoadImmediateWritesRegister
  intro s x kk
  rw [exec_ldVxKk]
  exact ⟨decodeWord_encode_ldVxKk x kk, writeReg_spec x kk s⟩

/-- Settles O20: a register write of the sum modulo 256; `VF` is among the registers it leaves. -/
theorem addImmediateWrapsWithoutFlag : Obligations.AddImmediateWrapsWithoutFlag := by
  unfold Obligations.AddImmediateWrapsWithoutFlag
  intro s x kk
  obtain ⟨t, ht, hreg, hframe⟩ := writeReg_spec x (BitVec.ofNat 8 ((s.reg x).toNat + kk.toNat)) s
  have hsum : (t.reg x).toNat = ((s.reg x).toNat + kk.toNat) % 256 := by
    rw [hreg, BitVec.toNat_ofNat]
  exact ⟨decodeWord_encode_addVxKk x kk, t, (exec_addVxKk x kk s).trans ht, hsum, hframe⟩

/-- Settles O21: a register write of the other register's value. -/
theorem copyRegisterWritesDestination : Obligations.CopyRegisterWritesDestination := by
  unfold Obligations.CopyRegisterWritesDestination
  intro s x y
  rw [exec_ldVxVy]
  exact ⟨decodeWord_encode_ldVxVy x y, writeReg_spec x (s.reg y) s⟩

end Sys2Proof.Proofs
end

section
/-! Load index (spec/43_index_memory.md R180): `ANNN` writes `I` and `pc` and reads neither memory nor
`I`, so its operand is accepted whatever it is; one frame lemma serves every write of `I`. -/

namespace Sys2Proof.Proofs

open Sys2Proof Sys2Proof.Machine

theorem decodeWord_encode_ldINnn (nnn : Addr12) :
    decodeWord (encodeNNN 0xA#4 nnn) = .ok (.ldINnn nnn) := by simp [decodeWord]

theorem exec_ldINnn (nnn : Addr12) (s : State) :
    exec (.ldINnn nnn) s = .next ((s.setI (zext16 nnn)).goto s.npc) := rfl

/-- The frame of an instruction that writes the index and moves on. -/
theorem sameBut_setI_goto (s : State) (w target : Word) :
    SameBut [.I, .pc] s ((s.setI w).goto target) := by
  simp [SameBut]

/-- Settles O30: the index gets the operand widened to 16 bits, which keeps its value. -/
theorem loadIndexWritesI : Obligations.LoadIndexWritesI := by
  unfold Obligations.LoadIndexWritesI
  exact fun s nnn => ⟨decodeWord_encode_ldINnn nnn, _, exec_ldINnn nnn s, toNat_zext16 nnn, rfl,
    sameBut_setI_goto s _ _⟩

end Sys2Proof.Proofs
end

section
/-! Clear the display (spec/44_display.md R200): `00E0` is a write of the clear buffer, which marks it
dirty, and the move past the instruction. -/

namespace Sys2Proof.Proofs

open Sys2Proof Sys2Proof.Machine

theorem decodeWord_cls : decodeWord 0x00E0#16 = .ok .cls := by decide

theorem exec_cls (s : State) :
    exec .cls s = .next ((s.setFrame FrameBuffer.clear).goto s.npc) := rfl

/-- The frame of an instruction that writes the display buffer alone and moves on. -/
theorem sameBut_setFrame_goto (s : State) (fb : FrameBuffer) (target : Word) :
    SameBut [.fb, .dirty, .pc] s ((s.setFrame fb).goto target) := by
  simp [SameBut]

/-- Settles O38: a pixel after `00E0` is a pixel of the clear buffer; the buffer before is not read. -/
theorem clearScreenClearsEveryPixel : Obligations.ClearScreenClearsEveryPixel := by
  unfold Obligations.ClearScreenClearsEveryPixel
  exact ⟨decodeWord_cls, fun s => ⟨_, exec_cls s,
    fun px py _ _ => FrameBuffer.pixel_clear px py, rfl, rfl, sameBut_setFrame_goto s _ _⟩⟩

end Sys2Proof.Proofs
end

section
/-! The key wait and the delay timer (spec/45_keypad_timers.md R222 to R224). What `lowestKey` answers
is said once in the words of R222; each instruction is then a register write, a timer write, or no
change at all. -/

namespace Sys2Proof.Proofs

open Sys2Proof Sys2Proof.Machine

/-! ### The words -/

/-- Family F is decided by the low byte. -/
theorem decodeWord_encodeXKK_familyF (x : Reg) (kk : Byte) :
    decodeWord (encodeXKK 0xF#4 x kk) = decodeFamilyF (encodeXKK 0xF#4 x kk) := by
  simp [decodeWord]

theorem decodeWord_encode_ldVxDt (x : Reg) :
    decodeWord (encodeXKK 0xF#4 x 0x07#8) = .ok (.ldVxDt x) := by
  simp [decodeWord_encodeXKK_familyF, decodeFamilyF]

theorem decodeWord_encode_ldVxK (x : Reg) :
    decodeWord (encodeXKK 0xF#4 x 0x0A#8) = .ok (.ldVxK x) := by
  simp [decodeWord_encodeXKK_familyF, decodeFamilyF]

theorem decodeWord_encode_ldDtVx (x : Reg) :
    decodeWord (encodeXKK 0xF#4 x 0x15#8) = .ok (.ldDtVx x) := by
  simp [decodeWord_encodeXKK_familyF, decodeFamilyF]

/-! ### The lowest key -/

theorem lowestKey_eq_none_iff (s : State) :
    s.lowestKey = none ↔ ∀ j : KeyIndex, s.keyDown j = false := by
  rw [State.lowestKey, ← Fin.find?_eq_find?_finRange, Fin.find?_eq_none_iff]

theorem lowestKey_eq_some_iff (s : State) (j : KeyIndex) :
    s.lowestKey = some j ↔ s.keyDown j = true ∧ ∀ k < j, s.keyDown k = false := by
  rw [State.lowestKey, ← Fin.find?_eq_find?_finRange, Fin.find?_eq_some_iff]

/-! ### The meanings -/

theorem exec_ldVxDt (x : Reg) (s : State) : exec (.ldVxDt x) s = writeReg x s.DT s := rfl

theorem exec_ldVxK (x : Reg) (s : State) : exec (.ldVxK x) s = execLdVxK x s := rfl

theorem exec_ldDtVx (x : Reg) (s : State) :
    exec (.ldDtVx x) s = .next ((s.setDT (s.reg x)).goto s.npc) := rfl

theorem exec_ldVxK_of_no_key {s : State} (x : Reg) (h : s.lowestKey = none) :
    exec (.ldVxK x) s = .next s := by
  simpa [h, exec_ldVxK] using execLdVxK_cases x s

theorem exec_ldVxK_of_key {s : State} {j : KeyIndex} (x : Reg) (h : s.lowestKey = some j) :
    exec (.ldVxK x) s = writeReg x (BitVec.ofNat 8 j.val) s := by
  simpa [h, exec_ldVxK, writeReg_next] using execLdVxK_cases x s

/-! ### The frames -/

theorem sameBut_refl (fs : List StateField) (s : State) : SameBut fs s s := by
  simp [SameBut]

/-- The frame of an instruction that sets the delay timer and moves on. -/
theorem sameBut_setDT_goto (s : State) (b : Byte) (target : Word) :
    SameBut [.DT, .pc] s ((s.setDT b).goto target) := by
  simp [SameBut]

/-! ### The statements -/

/-- Settles O43: with no key down `lowestKey` answers none and the state stays; otherwise it answers the
key that the hypotheses describe, whose number a byte holds. -/
theorem keyWaitTakesLowestKey : Obligations.KeyWaitTakesLowestKey := by
  unfold Obligations.KeyWaitTakesLowestKey
  refine fun s x => ⟨decodeWord_encode_ldVxK x, fun hup => ?_, fun j hj hdown hleast => ?_⟩
  · have hnone : s.lowestKey = none := (lowestKey_eq_none_iff s).mpr fun j => hup j.val j.isLt
    exact ⟨s, exec_ldVxK_of_no_key x hnone, sameBut_refl [] s⟩
  · have hsome : s.lowestKey = some ⟨j, hj⟩ :=
      (lowestKey_eq_some_iff s ⟨j, hj⟩).mpr ⟨hdown, fun k hk => hleast k.val hk⟩
    obtain ⟨t, ht, hreg, hframe⟩ := writeReg_spec x (BitVec.ofNat 8 j) s
    have hnumber : (t.reg x).toNat = j := by
      rw [hreg, BitVec.toNat_ofNat]; omega
    exact ⟨t, (exec_ldVxK_of_key x hsome).trans ht, hnumber, hframe⟩

/-- Settles O44: a register write of `DT`, and a write of `DT` that keeps the events. -/
theorem delayTimerIsReadAndSet : Obligations.DelayTimerIsReadAndSet := by
  unfold Obligations.DelayTimerIsReadAndSet
  intro s x
  rw [exec_ldVxDt]
  exact ⟨decodeWord_encode_ldVxDt x, decodeWord_encode_ldDtVx x, writeReg_spec x s.DT s,
    _, exec_ldDtVx x s, rfl, rfl, sameBut_setDT_goto s (s.reg x) _⟩

end Sys2Proof.Proofs
end

section
/-! Decoder and encoder as inverses, and the words that are rejected (spec/30_encoding.md R91 to
R97). A word is put together again from its fields in the three shapes the encoder builds; both
statements then follow the decoder's own split by the first digit. -/

namespace Sys2Proof.Proofs

open Sys2Proof

/-! ### A word from its fields -/

theorem encodeNNN_fields {op : Word} {m : Nibble} (hm : (fieldMajor op).toNat = m.toNat) :
    encodeNNN m (fieldNNN op) = op := by
  apply BitVec.eq_of_toNat_eq
  rw [toNat_encodeNNN, ← hm, toNat_fieldMajor, toNat_fieldNNN]; omega

theorem encodeXKK_fields {op : Word} {m : Nibble} {kk : Byte}
    (hm : (fieldMajor op).toNat = m.toNat) (hkk : (fieldKK op).toNat = kk.toNat) :
    encodeXKK m (fieldX op) kk = op := by
  apply BitVec.eq_of_toNat_eq
  rw [toNat_encodeXKK, ← hm, ← hkk, toNat_fieldMajor, val_fieldX, toNat_fieldKK]; omega

theorem encodeXYN_fields {op : Word} {m n : Nibble}
    (hm : (fieldMajor op).toNat = m.toNat) (hn : (fieldN op).toNat = n.toNat) :
    encodeXYN m (fieldX op) (fieldY op) n = op := by
  apply BitVec.eq_of_toNat_eq
  rw [toNat_encodeXYN, ← hm, ← hn, toNat_fieldMajor, val_fieldX, val_fieldY, toNat_fieldN]; omega

/-! ### Encoding what was decoded -/

theorem encode_of_decodeFamily0 {op : Word} {i : Instr} (h : decodeFamily0 op = .ok i) :
    encode i = op := by
  unfold decodeFamily0 at h
  split_ifs at h with hcls hret <;> cases h
  · exact hcls.symm
  · exact hret.symm

theorem encode_of_decodeFamily8 {op : Word} {i : Instr} (hm : (fieldMajor op).toNat = 0x8)
    (h : decodeFamily8 op = .ok i) : encode i = op := by
  unfold decodeFamily8 at h
  split at h <;> cases h
  all_goals
    rename_i hn
    exact encodeXYN_fields hm hn

theorem encode_of_decodeFamilyE {op : Word} {i : Instr} (hm : (fieldMajor op).toNat = 0xE)
    (h : decodeFamilyE op = .ok i) : encode i = op := by
  unfold decodeFamilyE at h
  split at h <;> cases h
  all_goals
    rename_i hkk
    exact encodeXKK_fields hm hkk

theorem encode_of_decodeFamilyF {op : Word} {i : Instr} (hm : (fieldMajor op).toNat = 0xF)
    (h : decodeFamilyF op = .ok i) : encode i = op := by
  unfold decodeFamilyF at h
  split at h <;> cases h
  all_goals
    rename_i hkk
    exact encodeXKK_fields hm hkk

theorem encode_of_decodeWord {op : Word} {i : Instr} (h : decodeWord op = .ok i) :
    encode i = op := by
  unfold decodeWord at h
  split at h
  case h_1 => exact encode_of_decodeFamily0 h
  case h_9 hm => exact encode_of_decodeFamily8 hm h
  case h_15 hm => exact encode_of_decodeFamilyE hm h
  case h_16 hm => exact encode_of_decodeFamilyF hm h
  case h_2 hm | h_3 hm | h_11 hm | h_12 hm => cases h; exact encodeNNN_fields hm
  case h_4 hm | h_5 hm | h_7 hm | h_8 hm | h_13 hm => cases h; exact encodeXKK_fields hm rfl
  case h_6 hm | h_10 hm =>
    split at h <;> cases h
    rename_i hn
    exact encodeXYN_fields hm (congrArg BitVec.toNat hn)
  case h_14 hm => cases h; exact encodeXYN_fields hm rfl
  case h_17 => cases h

/-! ### Decoding what was encoded -/

/-- The cases are the formats of R92. -/
theorem wellFormed_of_instr (i : Instr) : i.wellFormed = true := by
  cases i
  case cls | ret => decide
  case jpNnn | callNnn | ldINnn | jpV0Nnn => exact Laws.ofNNN_wellFormed _
  case seVxKk | sneVxKk | ldVxKk | addVxKk | rndVxKk => exact Laws.ofXKK_wellFormed _ _
  case seVxVy | sneVxVy | ldVxVy | orVxVy | andVxVy | xorVxVy | addVxVy | subVxVy | shrVx
      | subnVxVy | shlVx =>
    exact Laws.ofXY_wellFormed _ _
  case drwVxVyN => exact Laws.ofXYN_wellFormed _ _ _
  case skpVx | sknpVx | ldVxDt | ldVxK | ldDtVx | ldStVx | addIVx | ldFVx | ldBVx | ldMemVx
      | ldVxMem =>
    exact Laws.ofX_wellFormed _

/-- The cases are the ways a row is told apart: the whole word, the first digit alone, the first and
the last, the first and the low byte. -/
theorem decodeWord_encode (i : Instr) : decodeWord (encode i) = .ok i := by
  cases i
  case cls | ret => decide
  case jpNnn | callNnn | seVxKk | sneVxKk | ldVxKk | addVxKk | ldINnn | jpV0Nnn | rndVxKk
      | drwVxVyN =>
    simp [encode, decodeWord]
  case seVxVy | sneVxVy => simp [encode, decodeWord]
  case ldVxVy | orVxVy | andVxVy | xorVxVy | addVxVy | subVxVy | shrVx | subnVxVy | shlVx =>
    simp [encode, decodeWord_encodeXYN_family8, decodeFamily8]
  case skpVx | sknpVx => simp [encode, decodeWord, decodeFamilyE]
  case ldVxDt | ldVxK | ldDtVx | ldStVx | addIVx | ldFVx | ldBVx | ldMemVx | ldVxMem =>
    simp [encode, decodeWord_encodeXKK_familyF, decodeFamilyF]

/-- Settles O1: one direction by the instruction's row, the other by the decoder's families. -/
theorem decodeAndEncodeAreInverse : Obligations.DecodeAndEncodeAreInverse := by
  unfold Obligations.DecodeAndEncodeAreInverse
  exact ⟨fun i => ⟨wellFormed_of_instr i, decodeWord_encode i⟩,
    fun op i h => encode_of_decodeWord h⟩

/-! ### The rejected words -/

theorem decodeFamily0_eq_error_iff (op : Word) : decodeFamily0 op = .error (.unrecognized op) ↔
    op ≠ 0x00E0#16 ∧ op ≠ 0x00EE#16 := by
  unfold decodeFamily0
  split_ifs with hcls hret
  · simp [hcls]
  · simp [hret]
  · simp [hcls, hret]

theorem decodeFamily8_eq_error_iff (op : Word) : decodeFamily8 op = .error (.unrecognized op) ↔
    fieldN op ∈ [0x8#4, 0x9#4, 0xA#4, 0xB#4, 0xC#4, 0xD#4, 0xF#4] := by
  have hlt := (fieldN op).isLt
  simp only [List.mem_cons, List.not_mem_nil, or_false, ← BitVec.toNat_inj, BitVec.toNat_ofNat]
  unfold decodeFamily8
  split
  case h_10 => simp only [imp_false, true_iff] at *; omega
  all_goals
    rename_i hn
    simp [hn]

theorem decodeFamilyE_eq_error_iff (op : Word) : decodeFamilyE op = .error (.unrecognized op) ↔
    fieldKK op ∉ [0x9E#8, 0xA1#8] := by
  simp only [List.mem_cons, List.not_mem_nil, or_false, ← BitVec.toNat_inj, BitVec.toNat_ofNat]
  unfold decodeFamilyE
  split
  case h_3 => simp only [imp_false, true_iff] at *; omega
  all_goals
    rename_i hkk
    simp [hkk]

theorem decodeFamilyF_eq_error_iff (op : Word) : decodeFamilyF op = .error (.unrecognized op) ↔
    fieldKK op ∉ [0x07#8, 0x0A#8, 0x15#8, 0x18#8, 0x1E#8, 0x29#8, 0x33#8, 0x55#8, 0x65#8] := by
  simp only [List.mem_cons, List.not_mem_nil, or_false, ← BitVec.toNat_inj, BitVec.toNat_ofNat]
  unfold decodeFamilyF
  split
  case h_10 => simp only [imp_false, true_iff] at *; omega
  all_goals
    rename_i hkk
    simp [hkk]

/-- Settles O3: by the first digit; the families 0, 8, E and F have their own lemmas, 5 and 9 reject
on the last digit, and the others reject nothing. -/
theorem rejectedWordsAreThoseOfTheTable : Obligations.RejectedWordsAreThoseOfTheTable := by
  unfold Obligations.RejectedWordsAreThoseOfTheTable
  intro op
  simp only [← BitVec.toNat_inj (x := fieldMajor op), BitVec.toNat_ofNat]
  unfold decodeWord
  split
  case h_1 hm => simp [hm, decodeFamily0_eq_error_iff]
  case h_9 hm => simp only [hm, decodeFamily8_eq_error_iff]; simp
  case h_15 hm => simp only [hm, decodeFamilyE_eq_error_iff]; simp
  case h_16 hm => simp only [hm, decodeFamilyF_eq_error_iff]; simp
  case h_6 hm | h_10 hm => split_ifs with hn <;> simp [hm, hn]
  case h_17 =>
    have hlt := (fieldMajor op).isLt
    simp only [imp_false] at *
    omega
  all_goals
    rename_i hm
    simp [hm]

/-- Settles O4: eleven closed words. -/
theorem writtenOutWordsDecode : Obligations.WrittenOutWordsDecode := by
  unfold Obligations.WrittenOutWordsDecode
  decide

end Sys2Proof.Proofs
end

section
/-! What an instruction can do, said once for all 34. The six rules that can fault have an equation
for each side of their condition; every other instruction has one outcome. So an instruction takes
the one fault that `faultOf` names and nothing else happens, or it completes in one of the shapes of
`Completes`. The rules of the whole machine are read off these shapes. -/

namespace Sys2Proof.Proofs

open Sys2Proof Sys2Proof.Machine

/-! ### The instructions that can fault -/

theorem exec_callNnn_of_full {s : State} (nnn : Addr12) (h : s.sp.val = 16) :
    exec (.callNnn nnn) s = .next (s.raise .stackOverflow s.pc.toNat) := by
  obtain ⟨-, he⟩ | ⟨hroom, -⟩ := execCallNnn_cases nnn s
  · exact he
  · omega

theorem exec_callNnn_of_room {s : State} (nnn : Addr12) (h : s.sp.val < 16) :
    exec (.callNnn nnn) s =
      .next (({ s with stack := s.stack.set s.sp.val (s.pc + 2), sp := ⟨s.sp.val + 1, by omega⟩ } :
        State).goto (zext16 nnn)) := by
  obtain ⟨hfull, -⟩ | ⟨_, he⟩ := execCallNnn_cases nnn s
  · omega
  · exact he

theorem exec_ret_of_empty {s : State} (h : s.sp.val = 0) :
    exec .ret s = .next (s.raise .stackUnderflow s.pc.toNat) := by
  obtain ⟨-, he⟩ | ⟨hheld, -⟩ := execRet_cases s
  · exact he
  · exact absurd h hheld

theorem exec_ret_of_held {s : State} {j : Nat} (hj : j < 16) (h : s.sp.val = j + 1) :
    exec .ret s = .next (({ s with sp := ⟨j, by omega⟩ } : State).goto s.stack[j]) := by
  obtain ⟨hempty, -⟩ | ⟨-, he⟩ := execRet_cases s
  · omega
  · simp only [h, Nat.add_sub_cancel] at he
    exact he

theorem exec_ldBVx_inside {s : State} (x : Reg) (h : s.I.toNat + 3 ≤ 4096) :
    exec (.ldBVx x) s = .next (({ s with
      mem := s.mem.writeBytes s.I.toNat (decimalDigits (s.reg x)) } : State).goto (s.pc + 2)) := by
  obtain ⟨-, he⟩ | ⟨hout, -⟩ := storeAtIndex_cases (decimalDigits (s.reg x)) s
  · exact he
  · exact absurd h hout

theorem exec_ldBVx_outside {s : State} (x : Reg) (h : 4096 < s.I.toNat + 3) :
    exec (.ldBVx x) s = .next (s.raise .memOutOfRange (max s.I.toNat 4096)) := by
  obtain ⟨hin, -⟩ | ⟨-, he⟩ := storeAtIndex_cases (decimalDigits (s.reg x)) s
  · exact absurd hin (Nat.not_le.mpr h)
  · exact he

theorem exec_ldMemVx_inside {s : State} {x : Reg} (h : s.I.toNat + x.val + 1 ≤ 4096) :
    exec (.ldMemVx x) s = .next (({ s with
      mem := s.mem.writeBytes s.I.toNat (s.regsUpTo x) } : State).goto (s.pc + 2)) := by
  obtain ⟨-, he⟩ | ⟨hout, -⟩ := storeAtIndex_cases (s.regsUpTo x) s
  · exact he
  · rw [State.regsUpTo_length] at hout; omega

theorem exec_ldMemVx_outside {s : State} {x : Reg} (h : 4096 < s.I.toNat + x.val + 1) :
    exec (.ldMemVx x) s = .next (s.raise .memOutOfRange (max s.I.toNat 4096)) := by
  obtain ⟨hin, -⟩ | ⟨-, he⟩ := storeAtIndex_cases (s.regsUpTo x) s
  · rw [State.regsUpTo_length] at hin; omega
  · exact he

theorem exec_ldVxMem_inside {s : State} {x : Reg} (h : s.I.toNat + x.val + 1 ≤ 4096) :
    exec (.ldVxMem x) s =
      .next ((s.setRegs (s.mem.readBytes s.I.toNat (x.val + 1))).goto (s.pc + 2)) := by
  obtain ⟨-, he⟩ | ⟨hout, -⟩ := execLdVxMem_cases x s
  · exact he
  · exact absurd h hout

theorem exec_ldVxMem_outside {s : State} {x : Reg} (h : 4096 < s.I.toNat + x.val + 1) :
    exec (.ldVxMem x) s = .next (s.raise .memOutOfRange (max s.I.toNat 4096)) := by
  obtain ⟨hin, -⟩ | ⟨-, he⟩ := execLdVxMem_cases x s
  · exact absurd hin (Nat.not_le.mpr h)
  · exact he

/-- The sprite of `DXYN`, drawn over the display of the state. -/
def drawnSprite (x y : Reg) (n : Nibble) (s : State) : Blit :=
  blitRows (s.mem.readBytes s.I.toNat n.toNat) (s.reg x).toNat (s.reg y).toNat ⟨s.fb, false⟩

theorem exec_drwVxVyN_inside {s : State} (x y : Reg) {n : Nibble}
    (h : n = 0 ∨ s.I.toNat + n.toNat ≤ 4096) :
    exec (.drwVxVyN x y n) s = .next (((s.setFrame (drawnSprite x y n s).fb).setVF
      (flagByte (drawnSprite x y n s).hit)).goto (s.pc + 2)) := by
  obtain ⟨hn, hout, -⟩ | ⟨-, he⟩ := execDrwVxVyN_cases x y n s
  · exact absurd h (not_or.mpr ⟨hn, hout⟩)
  · exact he

theorem exec_drwVxVyN_outside {s : State} (x y : Reg) {n : Nibble} (hn : n ≠ 0)
    (h : 4096 < s.I.toNat + n.toNat) :
    exec (.drwVxVyN x y n) s = .next (s.raise .memOutOfRange (max s.I.toNat 4096)) := by
  obtain ⟨-, -, he⟩ | ⟨hin, -⟩ := execDrwVxVyN_cases x y n s
  · exact he
  · exact absurd hin (not_or.mpr ⟨hn, Nat.not_le.mpr h⟩)

/-! ### A fault, or the shapes of an instruction that completes -/

/-- The fault an instruction takes and its info, if it takes one (spec/60_exceptions.md section 2).
-/
def faultOf (s : State) : Instr → Option (FatalFault × Nat)
  | .callNnn _ => if s.sp.val = 16 then some (.stackOverflow, s.pc.toNat) else none
  | .ret => if s.sp.val = 0 then some (.stackUnderflow, s.pc.toNat) else none
  | .drwVxVyN _ _ n => if n ≠ 0 ∧ 4096 < s.I.toNat + n.toNat
      then some (.memOutOfRange, max s.I.toNat 4096) else none
  | .ldBVx _ => if 4096 < s.I.toNat + 3
      then some (.memOutOfRange, max s.I.toNat 4096) else none
  | .ldMemVx x => if 4096 < s.I.toNat + x.val + 1
      then some (.memOutOfRange, max s.I.toNat 4096) else none
  | .ldVxMem x => if 4096 < s.I.toNat + x.val + 1
      then some (.memOutOfRange, max s.I.toNat 4096) else none
  | _ => none

/-- What an instruction that takes no fault does to the state: which piece it writes, and which
instructions write that piece. The values of registers, index, timers and pixels are not said. -/
inductive Completes (i : Instr) (s : State) : State → Prop
  | waits : Completes i s s
  | jumps (w : Word) (hw : s.pc.toNat ≤ 0xFFE → w.toNat ≤ 0x10FE) : Completes i s (s.goto w)
  | writesRegs (v : Vector Byte 16) : Completes i s ({ s with v := v }.goto s.npc)
  | readsRandom (v : Vector Byte 16) (hi : ∃ x kk, i = .rndVxKk x kk) :
      Completes i s ({ s.countDraw with v := v }.goto s.npc)
  | writesIndex (w : Word)
      (hi : (∃ nnn, i = .ldINnn nnn) ∨ (∃ x, i = .addIVx x) ∨ ∃ x, i = .ldFVx x) :
      Completes i s ((s.setI w).goto s.npc)
  | writesDelay (b : Byte) (hi : ∃ x, i = .ldDtVx x) : Completes i s ((s.setDT b).goto s.npc)
  | writesSound (b : Byte) (hi : ∃ x, i = .ldStVx x) : Completes i s ((s.setST b).goto s.npc)
  | writesFrame (fb : FrameBuffer) (v : Vector Byte 16)
      (hi : i = .cls ∨ ∃ x y n, i = .drwVxVyN x y n) :
      Completes i s ({ s.setFrame fb with v := v }.goto s.npc)
  | stores (bs : List Byte) (hbs : s.I.toNat + bs.length ≤ 4096)
      (hi : (∃ x, i = .ldBVx x) ∨ ∃ x, i = .ldMemVx x) :
      Completes i s ({ s with mem := s.mem.writeBytes s.I.toNat bs }.goto s.npc)
  | pushes (nnn : Addr12) (hsp : s.sp.val < 16) (hi : i = .callNnn nnn) :
      Completes i s (({ s with stack := s.stack.set s.sp.val (s.pc + 2),
                               sp := ⟨s.sp.val + 1, by omega⟩ } : State).goto (zext16 nnn))
  | pops (j : Nat) (hj : j < 16) (hsp : s.sp.val = j + 1) (hi : i = .ret) :
      Completes i s (({ s with sp := ⟨j, by omega⟩ } : State).goto s.stack[j])

theorem zext16_le (nnn : Addr12) : (zext16 nnn).toNat ≤ 0xFFF := by
  have := nnn.isLt
  rw [toNat_zext16]; omega

/-- A skip from a `pc` at which a fetch is legal stays below 0x10FE. -/
theorem completes_skipIf (i : Instr) (c : Bool) (s : State) :
    ∃ t, skipIf c s = .next t ∧ Completes i s t := by
  refine ⟨_, skipIf_next c s, .jumps _ fun hpc => ?_⟩
  cases c <;> simp only [Bool.false_eq_true, if_false, if_true] <;> bv_omega

/-- The instructions with a condition are split at it; the others are grouped by their shape. -/
theorem exec_cases (i : Instr) (s : State) :
    (∃ f info, faultOf s i = some (f, info) ∧ exec i s = .next (s.raise f info)) ∨
    (faultOf s i = none ∧ ∃ t, exec i s = .next t ∧ Completes i s t) := by
  cases i
  case callNnn nnn =>
    by_cases h : s.sp.val = 16
    · exact .inl ⟨_, _, if_pos h, exec_callNnn_of_full nnn h⟩
    · have hroom : s.sp.val < 16 := by have := s.sp.isLt; omega
      exact .inr ⟨if_neg h, _, exec_callNnn_of_room nnn hroom, .pushes nnn hroom rfl⟩
  case ret =>
    by_cases h : s.sp.val = 0
    · exact .inl ⟨_, _, if_pos h, exec_ret_of_empty h⟩
    · obtain ⟨j, hj⟩ := Nat.exists_eq_succ_of_ne_zero h
      have hlt : j < 16 := by have := s.sp.isLt; omega
      exact .inr ⟨if_neg h, _, exec_ret_of_held hlt hj, .pops j hlt hj rfl⟩
  case drwVxVyN x y n =>
    by_cases h : n ≠ 0 ∧ 4096 < s.I.toNat + n.toNat
    · exact .inl ⟨_, _, if_pos h, exec_drwVxVyN_outside x y h.1 h.2⟩
    · have hin : n = 0 ∨ s.I.toNat + n.toNat ≤ 4096 := by
        rwa [not_and_or, not_not, Nat.not_lt] at h
      exact .inr ⟨if_neg h, _, exec_drwVxVyN_inside x y hin,
        .writesFrame _ _ (.inr ⟨x, y, n, rfl⟩)⟩
  case ldBVx x =>
    by_cases h : 4096 < s.I.toNat + 3
    · exact .inl ⟨_, _, if_pos h, exec_ldBVx_outside x h⟩
    · exact .inr ⟨if_neg h, _, exec_ldBVx_inside x (Nat.not_lt.mp h),
        .stores _ (Nat.not_lt.mp h) (.inl ⟨x, rfl⟩)⟩
  case ldMemVx x =>
    by_cases h : 4096 < s.I.toNat + x.val + 1
    · exact .inl ⟨_, _, if_pos h, exec_ldMemVx_outside h⟩
    · have hfits : s.I.toNat + (s.regsUpTo x).length ≤ 4096 := by
        rw [State.regsUpTo_length]; omega
      exact .inr ⟨if_neg h, _, exec_ldMemVx_inside (Nat.not_lt.mp h),
        .stores _ hfits (.inr ⟨x, rfl⟩)⟩
  case ldVxMem x =>
    by_cases h : 4096 < s.I.toNat + x.val + 1
    · exact .inl ⟨_, _, if_pos h, exec_ldVxMem_outside h⟩
    · exact .inr ⟨if_neg h, _, exec_ldVxMem_inside (Nat.not_lt.mp h), .writesRegs _⟩
  case ldVxK x =>
    obtain ⟨-, he⟩ | ⟨j, -, he⟩ := execLdVxK_cases x s
    · exact .inr ⟨rfl, _, he, .waits⟩
    · exact .inr ⟨rfl, _, he, .writesRegs _⟩
  case jpNnn nnn =>
    exact .inr ⟨rfl, _, rfl, .jumps _ fun _ => by have := zext16_le nnn; omega⟩
  case jpV0Nnn nnn =>
    refine .inr ⟨rfl, _, rfl, .jumps _ fun _ => ?_⟩
    have hnnn := nnn.isLt
    have hv0 := (s.reg V0).isLt
    rw [toNat_zext16_add_byteToWord]; omega
  case seVxKk | sneVxKk | seVxVy | sneVxVy | skpVx | sknpVx =>
    exact .inr ⟨rfl, completes_skipIf _ _ s⟩
  case ldVxKk | addVxKk | ldVxVy | orVxVy | andVxVy | xorVxVy | addVxVy | subVxVy | shrVx
      | subnVxVy | shlVx | ldVxDt =>
    exact .inr ⟨rfl, _, rfl, .writesRegs _⟩
  case rndVxKk x kk => exact .inr ⟨rfl, _, rfl, .readsRandom _ ⟨x, kk, rfl⟩⟩
  case ldINnn nnn => exact .inr ⟨rfl, _, rfl, .writesIndex _ (.inl ⟨nnn, rfl⟩)⟩
  case addIVx x => exact .inr ⟨rfl, _, rfl, .writesIndex _ (.inr (.inl ⟨x, rfl⟩))⟩
  case ldFVx x => exact .inr ⟨rfl, _, rfl, .writesIndex _ (.inr (.inr ⟨x, rfl⟩))⟩
  case ldDtVx x => exact .inr ⟨rfl, _, rfl, .writesDelay _ ⟨x, rfl⟩⟩
  case ldStVx x => exact .inr ⟨rfl, _, rfl, .writesSound _ ⟨x, rfl⟩⟩
  case cls => exact .inr ⟨rfl, _, rfl, .writesFrame _ _ (.inl rfl)⟩

/-- The same, of an instruction that answered `t`. -/
theorem exec_next_cases {i : Instr} {s t : State} (h : exec i s = .next t) :
    (∃ f info, faultOf s i = some (f, info) ∧ t = s.raise f info) ∨
    (faultOf s i = none ∧ Completes i s t) := by
  obtain ⟨f, info, hf, he⟩ | ⟨hf, t', he, hc⟩ := exec_cases i s
  · rw [he] at h; cases h
    exact .inl ⟨f, info, hf, rfl⟩
  · rw [he] at h; cases h
    exact .inr ⟨hf, hc⟩

end Sys2Proof.Proofs
end

section
/-! The invariant (spec/10_state.md R26, R28, R35; the canonical form of memory, log 18): kept by an
instruction, shape by shape; by a cycle; by each transition. -/

namespace Sys2Proof.Proofs

open Sys2Proof Sys2Proof.Machine

/-- The code of a fault is never the code of a running machine (R35, R245). -/
theorem code_ne_zero (f : FatalFault) : f.code ≠ 0 := by cases f <;> decide

theorem toNat_code_le (f : FatalFault) : f.code.toNat ≤ 4 := by cases f <;> decide

theorem inv_raise {s : State} (h : Inv s) (f : FatalFault) (info : Nat) : Inv (s.raise f info) where
  memory := h.memory
  cause_is_code := toNat_code_le f
  halted_iff_cause := iff_of_true rfl (code_ne_zero f)
  pc_bound := h.pc_bound
  return_address_bound := h.return_address_bound

/-- The invariant reads six fields: a state that agrees with `s` on five of them and has its `pc` in
the bound meets it too. -/
theorem inv_congr {s t : State} (h : Inv s) (hmem : t.mem = s.mem) (hsp : t.sp = s.sp)
    (hstack : t.stack = s.stack) (hhalted : t.halted = s.halted) (hcause : t.cause = s.cause)
    (hpc : t.pc.toNat ≤ 0x10FE) : Inv t where
  memory := hmem ▸ h.memory
  cause_is_code := hcause ▸ h.cause_is_code
  halted_iff_cause := by rw [hhalted, hcause]; exact h.halted_iff_cause
  pc_bound := hpc
  return_address_bound := by rw [hsp, hstack]; exact h.return_address_bound

theorem inv_beginTransition {s : State} (h : Inv s) (rest : List Transition) (o : Option Byte) :
    Inv (s.beginTransition rest o) := inv_congr h rfl rfl rfl rfl rfl h.pc_bound

theorem inv_beginCycle {s : State} (h : Inv s) (rest : List Transition) (o : Option Byte) :
    Inv (s.beginCycle rest o) := inv_congr h rfl rfl rfl rfl rfl h.pc_bound

theorem toNat_npc_le {s : State} (hpc : s.pc.toNat ≤ 0xFFE) : s.npc.toNat ≤ 0x1000 := by
  rw [toNat_npc hpc]; omega

/-- The stack after a push holds the pushed address at the old depth and the old ones below it. -/
theorem inv_push {s : State} (h : Inv s) {w target : Word} (hw : w.toNat ≤ 0x1000)
    (htarget : target.toNat ≤ 0x10FE) (hsp : s.sp.val < 16) :
    Inv (({ s with stack := s.stack.set s.sp.val w, sp := ⟨s.sp.val + 1, by omega⟩ } : State).goto
      target) where
  memory := h.memory
  cause_is_code := h.cause_is_code
  halted_iff_cause := h.halted_iff_cause
  pc_bound := htarget
  return_address_bound := by
    intro j hj hlive
    simp only [State.goto_stack, State.goto_sp, Vector.getElem_set] at hlive ⊢
    split
    · exact hw
    · exact h.return_address_bound j hj (by omega)

theorem inv_pop {s : State} (h : Inv s) {j : Nat} (hj : j < 16) (hsp : s.sp.val = j + 1) :
    Inv (({ s with sp := ⟨j, by omega⟩ } : State).goto s.stack[j]) where
  memory := h.memory
  cause_is_code := h.cause_is_code
  halted_iff_cause := h.halted_iff_cause
  pc_bound := (h.return_address_bound j hj (by omega)).trans (by decide)
  return_address_bound := fun k hk hlive =>
    h.return_address_bound k hk (Nat.lt_trans hlive (hsp ▸ Nat.lt_succ_self j))

theorem inv_of_completes {i : Instr} {s t : State} (h : Inv s) (hpc : s.pc.toNat ≤ 0xFFE)
    (hc : Completes i s t) : Inv t := by
  have hnpc : s.npc.toNat ≤ 0x1000 := toNat_npc_le hpc
  have hnext : s.npc.toNat ≤ 0x10FE := hnpc.trans (by decide)
  cases hc with
  | waits => exact h
  | jumps w hw => exact inv_congr h rfl rfl rfl rfl rfl (hw hpc)
  | writesRegs | readsRandom | writesIndex | writesDelay | writesSound | writesFrame =>
    exact inv_congr h rfl rfl rfl rfl rfl hnext
  | stores bs hbs =>
    exact { memory := Memory.wf_writeBytes bs h.memory hbs
            cause_is_code := h.cause_is_code
            halted_iff_cause := h.halted_iff_cause
            pc_bound := hnext
            return_address_bound := h.return_address_bound }
  | pushes nnn hsp => exact inv_push h hnpc ((zext16_le nnn).trans (by decide)) hsp
  | pops j hj hsp => exact inv_pop h hj hsp

theorem inv_runCycle {s t : State} (h : Inv s) (hrun : runCycle s = .next t) : Inv t := by
  obtain ⟨-, rfl⟩ | ⟨-, -, rfl⟩ | ⟨-, hpc, i, -, he⟩ | ⟨-, hpc, -, rfl⟩ := runCycle_cases hrun
  · exact h
  · exact inv_raise h _ _
  · obtain ⟨f, info, -, rfl⟩ | ⟨-, hc⟩ := exec_next_cases he
    · exact inv_raise h f info
    · exact inv_of_completes h hpc hc
  · exact inv_congr h rfl rfl rfl rfl rfl ((toNat_npc_le hpc).trans (by decide))

/-- A load that fits writes inside memory; a refused one writes nothing. -/
theorem inv_loadBytes {bytes : List Byte} {offset : Nat} {s t : State} (h : Inv s)
    (hload : loadBytes bytes offset s = .next t) : Inv t := by
  obtain ⟨-, ⟨hfits, rfl⟩ | ⟨-, rfl⟩⟩ := loadBytes_cases hload
  · exact { memory := Memory.wf_writeBytes bytes h.memory hfits
            cause_is_code := h.cause_is_code
            halted_iff_cause := h.halted_iff_cause
            pc_bound := h.pc_bound
            return_address_bound := h.return_address_bound }
  · exact inv_congr h rfl rfl rfl rfl rfl h.pc_bound

/-- Settles O58: every clause is about a closed state. -/
theorem resetMeetsTheInvariant : Obligations.ResetMeetsTheInvariant := by
  unfold Obligations.ResetMeetsTheInvariant
  exact { memory := Memory.wf_reset
          cause_is_code := by decide
          halted_iff_cause := by decide
          pc_bound := by decide
          return_address_bound := fun _ _ hlive => absurd hlive (Nat.not_lt_zero _) }

/-- Settles O57: a transition starts from a state that meets the invariant, and each of the six
keeps it; `Reset` establishes it. -/
theorem everyStepKeepsTheInvariant : Obligations.EveryStepKeepsTheInvariant := by
  unfold Obligations.EveryStepKeepsTheInvariant
  intro s t h hstep
  obtain ⟨-, rest, o, hrun⟩ | ⟨rest, -, rfl⟩ | ⟨k, rest, -, rfl⟩ | ⟨rest, -, rfl⟩ |
    ⟨bytes, offset, rest, -, hload⟩ | ⟨rest, -, rfl⟩ := step_cases hstep
  · exact inv_runCycle (inv_beginCycle h rest o) hrun
  · rw [tickTimers_eq]; exact inv_congr h rfl rfl rfl rfl rfl h.pc_bound
  · exact inv_congr h rfl rfl rfl rfl rfl h.pc_bound
  · exact inv_congr h rfl rfl rfl rfl rfl h.pc_bound
  · exact inv_loadBytes (inv_beginTransition h rest none) hload
  · exact inv_congr resetMeetsTheInvariant rfl rfl rfl rfl rfl resetMeetsTheInvariant.pc_bound

end Sys2Proof.Proofs
end

section
/-! Rules of every instruction (spec/60_exceptions.md section 2; 40_cycle.md R115, R119; 10_state.md
R39), read off its fault and the shapes in which it completes. -/

namespace Sys2Proof.Proofs

open Sys2Proof Sys2Proof.Machine

/-! ### Faults -/

theorem takesFault_raise (f : FatalFault) (info : Nat) (s : State) :
    TakesFault f info s (s.raise f info) :=
  ⟨rfl, rfl, rfl, by simp [SameBut]⟩

/-- An instruction that completes does not touch the halt latch. -/
theorem halted_of_completes {i : Instr} {s t : State} (hc : Completes i s t) :
    t.halted = s.halted := by
  cases hc <;> rfl

/-- Settles O9: an instruction that completes leaves the machine running, so this one took its
fault. -/
theorem faultingInstructionHasNoOtherEffect : Obligations.FaultingInstructionHasNoOtherEffect := by
  unfold Obligations.FaultingInstructionHasNoOtherEffect
  intro i s t hrun he hhalted
  obtain ⟨f, info, -, rfl⟩ | ⟨-, hc⟩ := exec_next_cases he
  · exact ⟨f, info, takesFault_raise f info s⟩
  · rw [halted_of_completes hc, hrun] at hhalted; cases hhalted

/-- Whether an instruction faults is decided by `faultOf`. -/
theorem exec_fault_or_runs {i : Instr} {s t : State} (hrun : s.halted = false)
    (he : exec i s = .next t) :
    match faultOf s i with
    | some (f, info) => TakesFault f info s t
    | none => t.halted = false := by
  obtain ⟨f, info, hf, rfl⟩ | ⟨hf, hc⟩ := exec_next_cases he
  · rw [hf]; exact takesFault_raise f info s
  · rw [hf]; exact (halted_of_completes hc).trans hrun

/-- Settles O10: `faultOf` is the table of the statement; each conditional row is split at its
condition. -/
theorem instructionsFaultExactlyWhen : Obligations.InstructionsFaultExactlyWhen := by
  unfold Obligations.InstructionsFaultExactlyWhen
  intro i s t hrun he
  have hrow := exec_fault_or_runs hrun he
  cases i
  case callNnn | ret | drwVxVyN | ldBVx | ldMemVx | ldVxMem =>
    simp only [faultOf] at hrow ⊢
    split_ifs at hrow ⊢ <;> exact hrow
  all_goals exact hrow

/-! ### Stops -/

theorem exec_answers (i : Instr) (s : State) : ∃ t, exec i s = .next t := by
  obtain ⟨f, info, -, he⟩ | ⟨-, t, he, -⟩ := exec_cases i s
  · exact ⟨_, he⟩
  · exact ⟨t, he⟩

theorem runCycle_answers (s : State) : ∃ t, runCycle s = .next t := by
  unfold runCycle
  split
  · exact ⟨_, rfl⟩
  · split
    · split
      · exact exec_answers _ s
      · exact ⟨_, rfl⟩
    · exact ⟨_, rfl⟩

/-- The next transition is a load and the time for loading is over. -/
def LateLoad (s : State) : Prop :=
  s.started = true ∧ ∃ bytes offset rest, s.schedule = .load bytes offset :: rest

theorem loadBytes_of_started {s : State} (bytes : List Byte) (offset : Nat)
    (h : s.started = true) : loadBytes bytes offset s = .fault .loadAfterFirstCycle := if_pos h

theorem loadBytes_answers {s : State} (bytes : List Byte) (offset : Nat)
    (h : s.started = false) : ∃ t, loadBytes bytes offset s = .next t := by
  unfold loadBytes
  rw [h, if_neg Bool.false_ne_true]
  split <;> exact ⟨_, rfl⟩

/-- The cases are the transitions; a load is split at whether a cycle has run. -/
theorem step_answers_or_lateLoad (s : State) :
    (¬ LateLoad s ∧ ∃ t, step s = .next t) ∨
    (LateLoad s ∧ step s = .fault .loadAfterFirstCycle) := by
  unfold step LateLoad
  split
  case h_1 hs => exact .inl ⟨by simp [hs], runCycle_answers _⟩
  case h_2 hs => exact .inl ⟨by simp [hs], runCycle_answers _⟩
  case h_6 bytes offset rest hs =>
    cases hstarted : s.started with
    | false => exact .inl ⟨by simp, loadBytes_answers bytes offset hstarted⟩
    | true =>
      exact .inr ⟨⟨rfl, bytes, offset, rest, hs⟩, loadBytes_of_started bytes offset hstarted⟩
  all_goals
    rename_i hs
    exact .inl ⟨by simp [hs], _, rfl⟩

/-- Settles O11: every instruction faults or completes; a step answers unless it is a late load. -/
theorem stepStopsOnlyOnLateLoad : Obligations.StepStopsOnlyOnLateLoad := by
  unfold Obligations.StepStopsOnlyOnLateLoad
  refine ⟨exec_answers, fun s => ?_, fun s => ?_⟩
  · obtain ⟨-, hnext⟩ | ⟨-, hstop⟩ := step_answers_or_lateLoad s
    · exact .inl hnext
    · exact .inr hstop
  · obtain ⟨hnot, t, hnext⟩ | ⟨hlate, hstop⟩ := step_answers_or_lateLoad s
    · exact ⟨fun hstop => (by rw [hnext] at hstop; cases hstop),
        fun hlate => absurd hlate hnot⟩
    · exact ⟨fun _ => hlate, fun _ => hstop⟩

/-! ### Frames -/

/-- Settles O51: a fault writes none of these fields; a completing instruction writes the piece of
its shape, which only the instructions of that shape may. -/
theorem instructionsWriteOnlyTheirState : Obligations.InstructionsWriteOnlyTheirState := by
  unfold Obligations.InstructionsWriteOnlyTheirState
  intro i s t he
  obtain ⟨f, info, -, rfl⟩ | ⟨-, hc⟩ := exec_next_cases he
  · simp
  · cases hc with
    | waits | jumps | writesRegs => simp
    | readsRandom v hi => obtain ⟨x, kk, rfl⟩ := hi; simp
    | writesIndex w hi => obtain ⟨nnn, rfl⟩ | ⟨x, rfl⟩ | ⟨x, rfl⟩ := hi <;> simp
    | writesDelay b hi => obtain ⟨x, rfl⟩ := hi; simp
    | writesSound b hi => obtain ⟨x, rfl⟩ := hi; simp
    | writesFrame fb v hi => obtain rfl | ⟨x, y, n, rfl⟩ := hi <;> simp
    | stores bs hbs hi => obtain ⟨x, rfl⟩ | ⟨x, rfl⟩ := hi <;> simp
    | pushes nnn hsp hi => subst hi; simp
    | pops j hj hsp hi => subst hi; simp

/-! ### The random byte -/

/-- Another random input and counter, all else as it is. -/
def withRandom (s : State) (b : Option Byte) (d : Nat) : State := { s with rnd := b, draws := d }

/-- The six instructions with a condition are split at it, the key wait at whether a key is down:
the side on which a state stands does not depend on the two fields. The others have one outcome. -/
theorem exec_withRandom {i : Instr} {s t : State} (b : Option Byte) (d : Nat)
    (hi : ∀ x kk, i ≠ .rndVxKk x kk) (he : exec i s = .next t) :
    exec i (withRandom s b d) = .next (withRandom t b d) := by
  cases i
  case rndVxKk x kk => exact absurd rfl (hi x kk)
  case callNnn nnn =>
    by_cases h : s.sp.val = 16
    · rw [exec_callNnn_of_full nnn h] at he; cases he
      exact exec_callNnn_of_full nnn h
    · have hroom : s.sp.val < 16 := by have := s.sp.isLt; omega
      rw [exec_callNnn_of_room nnn hroom] at he; cases he
      exact exec_callNnn_of_room (s := withRandom s b d) nnn hroom
  case ret =>
    by_cases h : s.sp.val = 0
    · rw [exec_ret_of_empty h] at he; cases he
      exact exec_ret_of_empty h
    · obtain ⟨j, hj⟩ := Nat.exists_eq_succ_of_ne_zero h
      have hlt : j < 16 := by have := s.sp.isLt; omega
      rw [exec_ret_of_held hlt hj] at he; cases he
      exact exec_ret_of_held (s := withRandom s b d) hlt hj
  case drwVxVyN x y n =>
    by_cases h : n = 0 ∨ s.I.toNat + n.toNat ≤ 4096
    · rw [exec_drwVxVyN_inside x y h] at he; cases he
      exact exec_drwVxVyN_inside x y h
    · obtain ⟨hn, hout⟩ := not_or.mp h
      rw [exec_drwVxVyN_outside x y hn (Nat.not_le.mp hout)] at he; cases he
      exact exec_drwVxVyN_outside x y hn (Nat.not_le.mp hout)
  case ldBVx x =>
    by_cases h : s.I.toNat + 3 ≤ 4096
    · rw [exec_ldBVx_inside x h] at he; cases he
      exact exec_ldBVx_inside x h
    · rw [exec_ldBVx_outside x (Nat.not_le.mp h)] at he; cases he
      exact exec_ldBVx_outside x (Nat.not_le.mp h)
  case ldMemVx x =>
    by_cases h : s.I.toNat + x.val + 1 ≤ 4096
    · rw [exec_ldMemVx_inside h] at he; cases he
      exact exec_ldMemVx_inside h
    · rw [exec_ldMemVx_outside (Nat.not_le.mp h)] at he; cases he
      exact exec_ldMemVx_outside (Nat.not_le.mp h)
  case ldVxMem x =>
    by_cases h : s.I.toNat + x.val + 1 ≤ 4096
    · rw [exec_ldVxMem_inside h] at he; cases he
      exact exec_ldVxMem_inside h
    · rw [exec_ldVxMem_outside (Nat.not_le.mp h)] at he; cases he
      exact exec_ldVxMem_outside (Nat.not_le.mp h)
  case ldVxK x =>
    cases h : s.lowestKey with
    | none =>
      rw [exec_ldVxK_of_no_key x h] at he; cases he
      exact exec_ldVxK_of_no_key x h
    | some j =>
      rw [exec_ldVxK_of_key x h] at he; cases he
      exact exec_ldVxK_of_key x h
  all_goals
    cases he
    rfl

/-- Settles O54: the two fields may be any in the start, and pass through to the next state. -/
theorem onlyRandomReadsTheRandomByte : Obligations.OnlyRandomReadsTheRandomByte := by
  unfold Obligations.OnlyRandomReadsTheRandomByte
  exact fun i s t b d hi he => exec_withRandom b d hi he

end Sys2Proof.Proofs
end

section
/-! Skips on registers and on a key, calls and returns (spec/41_flow.md R130, R132, R135, R136;
45_keypad_timers.md R220, R221): a skip is `skipIf` on its condition; a call and a return have an
equation on each side of the depth check. -/

namespace Sys2Proof.Proofs

open Sys2Proof Sys2Proof.Machine

/-! ### Skips -/

theorem exec_seVxVy (x y : Reg) (s : State) :
    exec (.seVxVy x y) s = skipIf (s.reg x == s.reg y) s := rfl

theorem exec_sneVxVy (x y : Reg) (s : State) :
    exec (.sneVxVy x y) s = skipIf (s.reg x != s.reg y) s := rfl

theorem exec_skpVx (x : Reg) (s : State) :
    exec (.skpVx x) s = skipIf (s.keyDown (lowNibble (s.reg x))) s := rfl

theorem exec_sknpVx (x : Reg) (s : State) :
    exec (.sknpVx x) s = skipIf (!s.keyDown (lowNibble (s.reg x))) s := rfl

/-- `lowNibble` selects by the value modulo 16 (D13, log 12). -/
theorem keyDown_lowNibble (s : State) (b : Byte) :
    s.keyDown (lowNibble b) = s.key.getLsbD (b.toNat % 16) := rfl

/-- The families 5 and 9 take the last digit 0 alone (R96, D16). -/
theorem decodeWord_family5_rejects (x y : Reg) {n : Nibble} (hn : n ≠ 0) :
    decodeWord (encodeXYN 0x5#4 x y n) = .error (.unrecognized (encodeXYN 0x5#4 x y n)) := by
  have hn : n ≠ 0#4 := hn
  simp [decodeWord, hn]

theorem decodeWord_family9_rejects (x y : Reg) {n : Nibble} (hn : n ≠ 0) :
    decodeWord (encodeXYN 0x9#4 x y n) = .error (.unrecognized (encodeXYN 0x9#4 x y n)) := by
  have hn : n ≠ 0#4 := hn
  simp [decodeWord, hn]

/-- Settles O15: the condition is the comparison of the two values, which one register always meets
with itself. -/
theorem registerSkipsTestTheirOperands : Obligations.RegisterSkipsTestTheirOperands := by
  unfold Obligations.RegisterSkipsTestTheirOperands
  intro s x y
  have hself : (x = y ∨ s.reg x = s.reg y) ↔ s.reg x = s.reg y :=
    or_iff_right_of_imp (congrArg s.reg)
  refine ⟨decodeWord_encode (.seVxVy x y), decodeWord_encode (.sneVxVy x y),
    fun n hn => ⟨decodeWord_family5_rejects x y hn, decodeWord_family9_rejects x y hn⟩, ?_, ?_⟩
  · simpa only [exec_seVxVy, hself, beq_iff_eq] using skipIf_spec (s.reg x == s.reg y) s
  · simpa only [exec_sneVxVy, hself, bne_iff_ne, ite_not] using skipIf_spec (s.reg x != s.reg y) s

/-- Settles O42: the condition is the level of the selected key, and its negation. -/
theorem keySkipsTestTheSelectedKey : Obligations.KeySkipsTestTheSelectedKey := by
  unfold Obligations.KeySkipsTestTheSelectedKey
  intro s x
  rw [← keyDown_lowNibble]
  refine ⟨?_, ?_⟩
  · simpa only [exec_skpVx] using skipIf_spec (s.keyDown (lowNibble (s.reg x))) s
  · simpa only [exec_sknpVx, Bool.not_eq_true', ← Bool.not_eq_true, ite_not] using
      skipIf_spec (!s.keyDown (lowNibble (s.reg x))) s

/-! ### Calls and returns -/

/-- A push writes the entry at the old depth alone. -/
theorem getElem_push_stack (s : State) (w : Word) (hsp : s.sp.val < 16) (j : Nat) (hj : j < 16) :
    (s.stack.set s.sp.val w)[j] = if j = s.sp.val then w else s.stack[j] := by
  rw [Vector.getElem_set]; simp only [eq_comm]

/-- Settles O16: with room the equation of the push, which writes the entry at the old depth; when
full the fault. -/
theorem callPushesReturnAddress : Obligations.CallPushesReturnAddress := by
  unfold Obligations.CallPushesReturnAddress
  refine fun s nnn => ⟨fun hroom => ?_, fun hfull => ?_⟩
  · exact ⟨_, exec_callNnn_of_room nnn hroom, getElem_push_stack s _ hroom, rfl, toNat_zext16 nnn,
      by simp [SameBut, State.reg]⟩
  · exact ⟨_, exec_callNnn_of_full nnn hfull, takesFault_raise _ _ s⟩

/-- Settles O17: with an address held the equation of the pop, which writes `pc` and `sp` alone;
with none the fault. -/
theorem returnPopsIntoPc : Obligations.ReturnPopsIntoPc := by
  unfold Obligations.ReturnPopsIntoPc
  refine fun s => ⟨fun j hj hheld => ?_, fun hempty => ?_⟩
  · exact ⟨_, exec_ret_of_held hj hheld, rfl, rfl, by simp [SameBut, State.reg]⟩
  · exact ⟨_, exec_ret_of_empty hempty, takesFault_raise _ _ s⟩

/-- Settles O18: the return pops the entry the call wrote at the old depth, which the depth is
again. -/
theorem callThenReturnComesBack : Obligations.CallThenReturnComesBack := by
  unfold Obligations.CallThenReturnComesBack
  intro s nnn hroom
  refine ⟨_, _, exec_callNnn_of_room nnn hroom, exec_ret_of_held hroom rfl, ?_, ?_, ?_⟩
  · exact (getElem_push_stack s _ hroom _ hroom).trans (if_pos rfl)
  · exact fun j hj hne => (getElem_push_stack s _ hroom j hj).trans (if_neg hne)
  · simp [SameBut, State.reg]

end Sys2Proof.Proofs
end

section
/-! Logic, shifts and random (spec/42_alu.md R153 to R155, R158, R160, R161, R163) and the flag as 0
or 1 (10_state.md R22). Logic is a register write; a shift is the third shape of a write, the flag
and then the register; random is a register write after the counter of random bytes has moved. -/

namespace Sys2Proof.Proofs

open Sys2Proof Sys2Proof.Machine

/-! ### The meanings -/

theorem exec_orVxVy (x y : Reg) (s : State) :
    exec (.orVxVy x y) s = writeReg x (s.reg x ||| s.reg y) s := rfl

theorem exec_andVxVy (x y : Reg) (s : State) :
    exec (.andVxVy x y) s = writeReg x (s.reg x &&& s.reg y) s := rfl

theorem exec_xorVxVy (x y : Reg) (s : State) :
    exec (.xorVxVy x y) s = writeReg x (s.reg x ^^^ s.reg y) s := rfl

theorem exec_shrVx (x y : Reg) (s : State) :
    exec (.shrVx x y) s =
      writeFlagThenReg x (s.reg x >>> 1) (shiftedOutLow (s.reg x)) s := rfl

theorem exec_shlVx (x y : Reg) (s : State) :
    exec (.shlVx x y) s =
      writeFlagThenReg x (s.reg x <<< 1) (shiftedOutHigh (s.reg x)) s := rfl

theorem exec_rndVxKk (x : Reg) (kk : Byte) (s : State) :
    exec (.rndVxKk x kk) s = writeReg x (s.randomByte &&& kk) s.countDraw := rfl

/-! ### Logic -/

/-- Settles O22: a register write, whose value has the bits named. -/
theorem logicOpsActBitByBit : Obligations.LogicOpsActBitByBit := by
  unfold Obligations.LogicOpsActBitByBit
  intro s x y
  refine ⟨?_, ?_, ?_⟩
  · obtain ⟨t, ht, hreg, hframe⟩ := writeReg_spec x (s.reg x ||| s.reg y) s
    exact ⟨t, (exec_orVxVy x y s).trans ht, fun k _ => by rw [hreg, BitVec.getLsbD_or], hframe⟩
  · obtain ⟨t, ht, hreg, hframe⟩ := writeReg_spec x (s.reg x &&& s.reg y) s
    exact ⟨t, (exec_andVxVy x y s).trans ht, fun k _ => by rw [hreg, BitVec.getLsbD_and], hframe⟩
  · obtain ⟨t, ht, hreg, hframe⟩ := writeReg_spec x (s.reg x ^^^ s.reg y) s
    exact ⟨t, (exec_xorVxVy x y s).trans ht, fun k _ => by rw [hreg, BitVec.getLsbD_xor], hframe⟩

/-! ### Shifts -/

/-- The flag and then the register: the result stands in its register, also where that is `VF`
(R163); the flag stands in `VF` otherwise. -/
theorem writeFlagThenReg_spec (x : Reg) (b f : Byte) (s : State) :
    ∃ t, writeFlagThenReg x b f s = .next t ∧ t.reg x = b ∧ (x ≠ VF → t.reg VF = f) ∧
      RegsSameBut [x, VF] s t ∧ t.pc = s.pc + 2 ∧ SameBut [.v, .pc] s t := by
  refine ⟨_, writeFlagThenReg_next x b f s, by simp, fun hx => ?_, fun r hr => ?_, rfl,
    by simp [SameBut]⟩
  · simp [hx.symm]
  · obtain ⟨hrx, hrf⟩ : r ≠ x ∧ r ≠ VF := by simpa using hr
    simp [hrx, hrf]

theorem toNat_shiftRight_one (b : Byte) : (b >>> 1).toNat = b.toNat / 2 := by
  rw [BitVec.toNat_ushiftRight, Nat.shiftRight_eq_div_pow, pow_one]

theorem toNat_shiftLeft_one (b : Byte) : (b <<< 1).toNat = b.toNat * 2 % 256 := by
  rw [BitVec.toNat_shiftLeft, Nat.shiftLeft_eq, pow_one]

theorem toNat_and_one (b : Byte) : (b &&& 1).toNat = b.toNat % 2 := by
  rw [BitVec.toNat_and]; exact Nat.and_one_is_mod b.toNat

theorem toNat_shiftedOutLow (b : Byte) : (shiftedOutLow b).toNat = b.toNat % 2 := toNat_and_one b

theorem toNat_shiftedOutHigh (b : Byte) : (shiftedOutHigh b).toNat = b.toNat / 128 := by
  have hb := b.isLt
  rw [shiftedOutHigh, toNat_and_one, BitVec.toNat_ushiftRight, Nat.shiftRight_eq_div_pow]; omega

/-- Settles O26: the flag and then the halved value. -/
theorem shiftRightMovesOneBit : Obligations.ShiftRightMovesOneBit := by
  unfold Obligations.ShiftRightMovesOneBit
  intro s x y
  obtain ⟨t, ht, hreg, hflag, hframe⟩ :=
    writeFlagThenReg_spec x (s.reg x >>> 1) (shiftedOutLow (s.reg x)) s
  exact ⟨t, (exec_shrVx x y s).trans ht, by rw [hreg, toNat_shiftRight_one],
    fun hx => by rw [hflag hx, toNat_shiftedOutLow], hframe⟩

/-- Settles O27: the flag and then the doubled value. -/
theorem shiftLeftMovesOneBit : Obligations.ShiftLeftMovesOneBit := by
  unfold Obligations.ShiftLeftMovesOneBit
  intro s x y
  obtain ⟨t, ht, hreg, hflag, hframe⟩ :=
    writeFlagThenReg_spec x (s.reg x <<< 1) (shiftedOutHigh (s.reg x)) s
  exact ⟨t, (exec_shlVx x y s).trans ht, by rw [hreg, toNat_shiftLeft_one],
    fun hx => by rw [hflag hx, toNat_shiftedOutHigh], hframe⟩

/-! ### Random -/

/-- Settles O28: the register write of the masked byte; the counter is the one further field. -/
theorem randomByteIsMasked : Obligations.RandomByteIsMasked := by
  unfold Obligations.RandomByteIsMasked
  intro s x kk
  refine ⟨_, (exec_rndVxKk x kk s).trans (writeReg_next _ _ _), fun b hb => ?_, fun hnone => ?_,
    fun k _ hk => ?_, fun r hr => ?_, rfl, by simp [SameBut]⟩
  · simp [State.randomByte, hb]
  · simp [State.randomByte, hnone]
  · simp [hk]
  · have hrx : r ≠ x := by simpa using hr
    exact (State.reg_setReg s.countDraw x r _).trans (if_neg hrx)

/-! ### The flag is 0 or 1 -/

theorem eq_zero_or_one_of_toNat_le {b : Byte} (h : b.toNat ≤ 1) : b = 0 ∨ b = 1 := by
  rw [← BitVec.toNat_inj, ← BitVec.toNat_inj]
  exact Nat.le_one_iff_eq_zero_or_eq_one.mp h

theorem flag_of_writeRegThenFlag {x : Reg} {b : Byte} {c : Bool} {s t : State}
    (h : writeRegThenFlag x b (flagByte c) s = .next t) : t.reg VF = 0 ∨ t.reg VF = 1 := by
  obtain ⟨t', ht', -, hflag, -⟩ := writeRegThenFlag_spec x b (flagByte c) s
  rw [ht'] at h; cases h
  rw [hflag]; exact flagByte_is_bit c

theorem flag_of_writeFlagThenReg {x : Reg} {b f : Byte} {s t : State} (hx : x ≠ VF)
    (hf : f.toNat ≤ 1) (h : writeFlagThenReg x b f s = .next t) :
    t.reg VF = 0 ∨ t.reg VF = 1 := by
  obtain ⟨t', ht', -, hflag, -⟩ := writeFlagThenReg_spec x b f s
  rw [ht'] at h; cases h
  rw [hflag hx]; exact eq_zero_or_one_of_toNat_le hf

/-- The registers after a draw: `VF` is the collision flag, the others are as they were. -/
theorem reg_draw (s : State) (fb : FrameBuffer) (f : Byte) (target : Word) (r : Reg) :
    (((s.setFrame fb).setVF f).goto target).reg r = if r = VF then f else s.reg r :=
  State.reg_setVF (s.setFrame fb) r f

/-- Settles O29: the flag of the sum and the differences is a `flagByte`, as is the collision of a
draw; the flag of a shift is a bit shifted out. -/
theorem flagIsZeroOrOneAfterFlagWriters : Obligations.FlagIsZeroOrOneAfterFlagWriters := by
  unfold Obligations.FlagIsZeroOrOneAfterFlagWriters
  intro i s t he hi
  cases i
  case addVxVy | subVxVy | subnVxVy => exact flag_of_writeRegThenFlag he
  case shrVx x y =>
    refine flag_of_writeFlagThenReg hi ?_ he
    rw [toNat_shiftedOutLow]; omega
  case shlVx x y =>
    refine flag_of_writeFlagThenReg hi ?_ he
    have := (s.reg x).isLt
    rw [toNat_shiftedOutHigh]; omega
  case drwVxVyN x y n =>
    rw [exec_drwVxVyN_inside x y hi] at he; cases he
    rw [reg_draw, if_pos rfl]; exact flagByte_is_bit _
  all_goals exact hi.elim

end Sys2Proof.Proofs
end

section
/-! Index and memory (spec/43_index_memory.md R181 to R186; 20_memory.md R65, section 7; the
canonical form, log 18): each transfer has an equation inside and outside memory; what is read after
a store is the law of `writeBytes`. -/

namespace Sys2Proof.Proofs

open Sys2Proof Sys2Proof.Machine

/-! ### Index arithmetic and glyphs -/

theorem exec_addIVx (x : Reg) (s : State) :
    exec (.addIVx x) s =
      .next ((s.setI (BitVec.ofNat 16 (s.I.toNat + (s.reg x).toNat))).goto s.npc) := rfl

theorem exec_ldFVx (x : Reg) (s : State) :
    exec (.ldFVx x) s = .next ((s.setI (glyphAddress (lowNibble (s.reg x)))).goto s.npc) := rfl

/-- The last glyph starts at 75 bytes past the base, so 16 bits hold its address. -/
theorem toNat_glyphAddress (d : Fin 16) : (glyphAddress d).toNat = fontBase + 5 * d.val := by
  have hd := d.isLt
  rw [glyphAddress, BitVec.toNat_ofNat, fontBase]; omega

/-- Settles O31: both write the index and move on. -/
theorem indexArithmeticAndGlyphs : Obligations.IndexArithmeticAndGlyphs := by
  unfold Obligations.IndexArithmeticAndGlyphs
  exact fun s x =>
    ⟨⟨_, exec_addIVx x s, BitVec.toNat_ofNat _ _, rfl, sameBut_setI_goto s _ _⟩,
     ⟨_, exec_ldFVx x s, toNat_glyphAddress _, rfl, sameBut_setI_goto s _ _⟩⟩

/-! ### Stores -/

theorem effectiveAddress_eq (s : State) (k : Nat) : s.effectiveAddress k = s.I.toNat + k := rfl

/-- The frame of a store that moves on. -/
theorem sameBut_store_goto (s : State) (m : Memory) (target : Word) :
    SameBut [.mem, .pc] s (({ s with mem := m } : State).goto target) := by
  simp [SameBut, State.reg]

/-- Inside the stored range an address reads the byte at its place in the list. -/
theorem read_writeBytes_inside (m : Memory) (a : Nat) {k : Nat} {bs : List Byte}
    (hk : k < bs.length) : (m.writeBytes a bs).read (a + k) = bs.getD k 0 := by
  rw [Memory.read_writeBytes, if_pos (by omega), Nat.add_sub_cancel_left]

/-- Settles O32: the digits are the quotients of the value; the store of the three bytes, or the
fault. -/
theorem decimalDigitsAreStored : Obligations.DecimalDigitsAreStored := by
  unfold Obligations.DecimalDigitsAreStored
  refine fun s x => ⟨fun hin => ?_, fun hout => ⟨_, exec_ldBVx_outside x hout,
    takesFault_raise _ _ s⟩⟩
  have hv := (s.reg x).isLt
  have hlength : (decimalDigits (s.reg x)).length = 3 := rfl
  refine ⟨_, exec_ldBVx_inside x hin,
    ⟨(s.reg x).toNat / 100, (s.reg x).toNat / 10 % 10, (s.reg x).toNat % 10, by omega, by omega,
      by omega, by omega, ?_, ?_, ?_⟩, fun a ha => ?_, rfl, sameBut_store_goto s _ _⟩
  · exact read_writeBytes_inside _ _ (k := 0) (by omega)
  · exact read_writeBytes_inside _ _ (k := 1) (by omega)
  · exact read_writeBytes_inside _ _ (k := 2) (by omega)
  · rw [effectiveAddress_eq, effectiveAddress_eq] at ha
    exact Memory.read_writeBytes_outside _ _ _ _ (by omega)

/-- After a block store the address `I + i` reads `v[i]`. -/
theorem read_storedBlock (s : State) {x i : Reg} (hi : i ≤ x) :
    (s.mem.writeBytes s.I.toNat (s.regsUpTo x)).read (s.I.toNat + i.val) = s.reg i := by
  have hi : i.val ≤ x.val := hi
  rw [read_writeBytes_inside _ _ (by rw [State.regsUpTo_length]; omega),
    State.regsUpTo_getD s x i 0 hi]

/-- Settles O33: the store of the block, or the fault. -/
theorem registerBlockIsStored : Obligations.RegisterBlockIsStored := by
  unfold Obligations.RegisterBlockIsStored
  refine fun s x => ⟨fun hin => ?_, fun hout => ⟨_, exec_ldMemVx_outside hout,
    takesFault_raise _ _ s⟩⟩
  refine ⟨_, exec_ldMemVx_inside hin, fun i hi => read_storedBlock s hi, fun a ha => ?_, rfl,
    sameBut_store_goto s _ _⟩
  have hlength := State.regsUpTo_length s x
  rw [effectiveAddress_eq, effectiveAddress_eq] at ha
  exact Memory.read_writeBytes_outside _ _ _ _ (by omega)

/-! ### Loads -/

/-- A block load writes the registers up to `X` from memory and leaves those above. -/
theorem reg_loadedBlock (s : State) (x i : Reg) (target : Word) :
    ((s.setRegs (s.mem.readBytes s.I.toNat (x.val + 1))).goto target).reg i =
      if i ≤ x then s.mem.read (s.I.toNat + i.val) else s.reg i := by
  refine (State.reg_setRegs s _ i).trans ?_
  split
  case isTrue hi => exact Memory.readBytes_getD _ _ _ _ _ (Nat.lt_succ_of_le hi)
  case isFalse hi =>
    have hi : x.val < i.val := Nat.lt_of_not_le hi
    exact List.getD_eq_default _ _ (by rw [Memory.readBytes_length]; omega)

/-- Settles O34: the load of the block, or the fault. -/
theorem registerBlockIsLoaded : Obligations.RegisterBlockIsLoaded := by
  unfold Obligations.RegisterBlockIsLoaded
  refine fun s x => ⟨fun hin => ?_, fun hout => ⟨_, exec_ldVxMem_outside hout,
    takesFault_raise _ _ s⟩⟩
  exact ⟨_, exec_ldVxMem_inside hin, fun i => reg_loadedBlock s x i _, rfl, by simp [SameBut]⟩

/-- Settles O35: the store leaves `I`, so the load reads the stored block. -/
theorem storedBlockLoadsBack : Obligations.StoredBlockLoadsBack := by
  unfold Obligations.StoredBlockLoadsBack
  intro s x w hin
  refine ⟨_, _, exec_ldMemVx_inside hin, exec_ldVxMem_inside hin, fun i => ?_, rfl, fun _ => rfl⟩
  rw [reg_loadedBlock]
  split
  case isTrue hi => exact read_storedBlock s hi
  case isFalse => rfl

/-- Settles O36: the store starts at the next instruction, so the first two bytes stored are its
word. -/
theorem storeIsSeenByNextFetch : Obligations.StoreIsSeenByNextFetch := by
  unfold Obligations.StoreIsSeenByNextFetch
  intro s x hx hin hI
  refine ⟨_, exec_ldMemVx_inside hin, ?_⟩
  have hfirst := read_storedBlock s (x := x) (i := 0) (Fin.zero_le x)
  have hsecond := read_storedBlock s (x := x) (i := 1) hx
  rw [State.fetchWord, State.goto_pc, ← hI]
  exact congrArg₂ (· ++ ·) hfirst hsecond

/-! ### The canonical form -/

/-- Below the first listed address every address reads its reset content. -/
theorem read_of_forall_lt {m : Memory} {a : Nat} (h : ∀ p ∈ m, a < p.1) :
    m.read a = resetByte a := by
  induction m with
  | nil => rfl
  | cons cell rest ih =>
    obtain ⟨hcell, hrest⟩ := List.forall_mem_cons.mp h
    rw [Memory.read, if_neg (by omega)]
    exact ih hrest

theorem wf_cons_iff {k : Nat} {c : Byte} {rest : Memory} : Memory.wf ((k, c) :: rest) ↔
    (∀ p ∈ rest, k < p.1) ∧ k < 4096 ∧ c ≠ resetByte k ∧ Memory.wf rest := by
  simp only [Memory.wf, List.pairwise_cons, List.forall_mem_cons]
  tauto

theorem read_head (k : Nat) (c : Byte) (rest : Memory) : Memory.read ((k, c) :: rest) k = c :=
  if_pos rfl

/-- A memory in canonical form lists the first address of another that reads alike no later. -/
theorem head_le_of_reads_alike {k k' : Nat} {c c' : Byte} {rest rest' : Memory}
    (hm : Memory.wf ((k, c) :: rest)) (hn : Memory.wf ((k', c') :: rest'))
    (hread : Memory.read ((k, c) :: rest) k = Memory.read ((k', c') :: rest') k) : k' ≤ k := by
  obtain ⟨-, -, hc, -⟩ := wf_cons_iff.mp hm
  obtain ⟨habove, -⟩ := wf_cons_iff.mp hn
  by_contra hlt
  have hbelow : ∀ p ∈ (k', c') :: rest', k < p.1 :=
    List.forall_mem_cons.mpr ⟨by omega, fun p hp => by have := habove p hp; omega⟩
  rw [read_head, read_of_forall_lt hbelow] at hread
  exact hc hread

/-- Settles O37, by induction on both lists: the first listed address of each reads other than its
reset content, so the other lists it too, and no lower one; what follows it reads alike. -/
theorem memoriesThatReadAlikeAreEqual : Obligations.MemoriesThatReadAlikeAreEqual := by
  unfold Obligations.MemoriesThatReadAlikeAreEqual
  intro m
  induction m with
  | nil =>
    rintro (_ | ⟨⟨k', c'⟩, rest'⟩) - hn hread
    · rfl
    · obtain ⟨-, -, hc', -⟩ := wf_cons_iff.mp hn
      exact absurd ((read_head k' c' rest').symm.trans (hread k').symm) hc'
  | cons cell rest ih =>
    obtain ⟨k, c⟩ := cell
    rintro (_ | ⟨⟨k', c'⟩, rest'⟩) hm hn hread
    · obtain ⟨-, -, hc, -⟩ := wf_cons_iff.mp hm
      exact absurd ((read_head k c rest).symm.trans (hread k)) hc
    · obtain rfl : k = k' := le_antisymm (head_le_of_reads_alike hn hm (hread k').symm)
        (head_le_of_reads_alike hm hn (hread k))
      obtain rfl : c = c' := by simpa only [read_head] using hread k
      obtain ⟨habove, -, -, hrest⟩ := wf_cons_iff.mp hm
      obtain ⟨habove', -, -, hrest'⟩ := wf_cons_iff.mp hn
      have htail : ∀ a, Memory.read rest a = Memory.read rest' a := fun a => by
        by_cases ha : k = a
        · subst ha
          rw [read_of_forall_lt habove, read_of_forall_lt habove']
        · simpa only [Memory.read, if_neg ha] using hread a
      rw [ih rest' hrest hrest' htail]

end Sys2Proof.Proofs
end

section
/-! The sprite draw (spec/44_display.md R201 to R203). A blit toggles pixels one at a time; the
invariant `Drawn` says which pixels have been toggled so far and whether one of them was set. A
sprite has at most 32 rows of 8 columns, so no pixel is toggled twice, and each toggle adds its
pixel to the set. -/

namespace Sys2Proof.Proofs

open Sys2Proof Sys2Proof.Machine

/-! ### Pixels -/

/-- The pixel on which the coordinates `(x, y)` fall (R203). -/
def wrapped (x y : Nat) : Nat × Nat := (x % 64, y % 32)

theorem pixel_wrapped (fb : FrameBuffer) (x y : Nat) :
    fb.pixel (wrapped x y).1 (wrapped x y).2 = fb.pixel x y := by
  simp only [FrameBuffer.pixel, wrapped, Nat.mod_mod]

/-- Two buffers with the same 64 by 32 pixels are the same buffer. -/
theorem frameBuffer_ext {a b : FrameBuffer}
    (h : ∀ px py, px < 64 → py < 32 → a.pixel px py = b.pixel px py) : a = b := by
  apply Vector.ext
  intro py hpy
  apply BitVec.eq_of_getLsbD_eq
  intro px hpx
  simpa only [FrameBuffer.pixel, Nat.mod_eq_of_lt hpx, Nat.mod_eq_of_lt hpy] using h px py hpx hpy

/-! ### What has been drawn so far -/

/-- The blit has toggled the pixels of `S`, and no other, each once from the buffer `start`; it has
a hit when one of them was set there. -/
structure Drawn (start : FrameBuffer) (S : Set (Nat × Nat)) (acc : Blit) : Prop where
  toggled : ∀ px py, px < 64 → py < 32 →
    (acc.fb.pixel px py ≠ start.pixel px py ↔ (px, py) ∈ S)
  collided : acc.hit = true ↔ ∃ p ∈ S, start.pixel p.1 p.2 = true

theorem drawn_nothing (start : FrameBuffer) : Drawn start ∅ ⟨start, false⟩ where
  toggled := by simp
  collided := by simp

theorem pixel_toggle_ne_iff (fb : FrameBuffer) (x y : Nat) {px py : Nat} (hx : px < 64)
    (hy : py < 32) : (fb.toggle x y).pixel px py ≠ fb.pixel px py ↔ (px, py) = wrapped x y := by
  rw [FrameBuffer.pixel_toggle, Nat.mod_eq_of_lt hx, Nat.mod_eq_of_lt hy, wrapped, Prod.mk.injEq]
  cases fb.pixel px py <;> simp

/-- Toggling a pixel that has not been toggled adds it. -/
theorem drawn_toggle {start : FrameBuffer} {S : Set (Nat × Nat)} {acc : Blit} {x y : Nat}
    (h : Drawn start S acc) (hnew : wrapped x y ∉ S) :
    Drawn start (insert (wrapped x y) S)
      ⟨acc.fb.toggle x y, acc.hit || acc.fb.pixel x y⟩ where
  toggled px py hx hy := by
    have hstep := pixel_toggle_ne_iff acc.fb x y hx hy
    have hsofar := h.toggled px py hx hy
    rw [Set.mem_insert_iff]
    by_cases hp : (px, py) = wrapped x y
    · have hnotin : (px, py) ∉ S := hp ▸ hnew
      have hsame := not_not.mp (mt hsofar.mp hnotin)
      exact iff_of_true (hsame ▸ hstep.mpr hp) (.inl hp)
    · have hkept := not_not.mp (mt hstep.mp hp)
      rw [hkept, or_iff_right hp]; exact hsofar
  collided := by
    have hsofar := h.toggled _ _ (Nat.mod_lt x (by decide)) (Nat.mod_lt y (by decide))
    have hsame : acc.fb.pixel x y = start.pixel x y := by
      rw [← pixel_wrapped, ← pixel_wrapped start]
      exact not_not.mp (mt hsofar.mp hnew)
    simp [hsame, h.collided, pixel_wrapped, or_comm]

/-! ### A row, and the rows -/

/-- The pixels on which the 1 bits of a row of a sprite fall, columns `cs` of it. -/
def rowPixels (b : Byte) (x0 y : Nat) (cs : List Nat) : Set (Nat × Nat) :=
  {p | ∃ c ∈ cs, spriteBit b c = true ∧ p = wrapped (x0 + c) y}

/-- The columns of a row are at most eight, so no two fall on the same pixel. -/
theorem wrapped_column_injective {x0 y c c' : Nat} (hc : c < 8) (hc' : c' < 8)
    (h : wrapped (x0 + c) y = wrapped (x0 + c') y) : c = c' := by
  have h := congrArg Prod.fst h
  simp only [wrapped] at h
  omega

theorem drawn_columns {start : FrameBuffer} {S : Set (Nat × Nat)} {acc : Blit} (b : Byte)
    (x0 y : Nat) {cs : List Nat} (hnodup : cs.Nodup) (hcs : ∀ c ∈ cs, c < 8)
    (h : Drawn start S acc) (hnew : ∀ c ∈ cs, wrapped (x0 + c) y ∉ S) :
    Drawn start (S ∪ rowPixels b x0 y cs) (cs.foldl (blitPixel b x0 y) acc) := by
  induction cs generalizing S acc with
  | nil => simpa [rowPixels] using h
  | cons c cs ih =>
    obtain ⟨hc, hrest⟩ := List.forall_mem_cons.mp hcs
    obtain ⟨hnewc, hnewrest⟩ := List.forall_mem_cons.mp hnew
    obtain ⟨hnotin, hnodup⟩ := List.nodup_cons.mp hnodup
    rw [List.foldl_cons, blitPixel]
    split
    case isTrue hbit =>
      have hfirst := drawn_toggle h hnewc
      have hfresh : ∀ c' ∈ cs, wrapped (x0 + c') y ∉ insert (wrapped (x0 + c) y) S := by
        intro c' hc' hmem
        obtain heq | hmem := Set.mem_insert_iff.mp hmem
        · have := wrapped_column_injective (hrest c' hc') hc heq
          exact hnotin (this ▸ hc')
        · exact hnewrest c' hc' hmem
      convert ih hnodup hrest hfirst hfresh using 1
      ext p
      simp only [rowPixels, Set.mem_union, Set.mem_insert_iff, Set.mem_ofPred_eq,
        List.exists_mem_cons_iff, hbit, true_and]
      tauto
    case isFalse hbit =>
      convert ih hnodup hrest h hnewrest using 1
      ext p
      simp [rowPixels, hbit]

theorem drawn_row {start : FrameBuffer} {S : Set (Nat × Nat)} {acc : Blit} (b : Byte) (x0 y : Nat)
    (h : Drawn start S acc) (hnew : ∀ p ∈ S, p.2 ≠ y % 32) :
    Drawn start (S ∪ rowPixels b x0 y (List.range 8)) (blitRow b x0 y acc) :=
  drawn_columns b x0 y List.nodup_range (fun _ hc => List.mem_range.mp hc) h
    fun _ _ hmem => hnew _ hmem rfl

/-- The pixels on which the 1 bits of a sprite fall. -/
def spritePixels (rows : List Byte) (x0 y0 : Nat) : Set (Nat × Nat) :=
  {p | ∃ r c, r < rows.length ∧ c < 8 ∧ spriteBit (rows.getD r 0) c = true ∧
    p = wrapped (x0 + c) (y0 + r)}

theorem spritePixels_cons (b : Byte) (bs : List Byte) (x0 y : Nat) :
    spritePixels (b :: bs) x0 y = rowPixels b x0 y (List.range 8) ∪ spritePixels bs x0 (y + 1) := by
  ext p
  constructor
  · rintro ⟨_ | r, c, hr, hc, hbit, rfl⟩
    · exact .inl ⟨c, List.mem_range.mpr hc, hbit, rfl⟩
    · exact .inr ⟨r, c, Nat.lt_of_succ_lt_succ hr, hc, hbit, by rw [Nat.add_right_comm y 1 r]; rfl⟩
  · rintro (⟨c, hc, hbit, rfl⟩ | ⟨r, c, hr, hc, hbit, rfl⟩)
    · exact ⟨0, c, Nat.succ_pos _, List.mem_range.mp hc, hbit, rfl⟩
    · exact ⟨r + 1, c, Nat.succ_lt_succ hr, hc, hbit, by rw [Nat.add_right_comm y 1 r]; rfl⟩

/-- At most 32 rows fall on different rows of the display. -/
theorem drawn_rows {start : FrameBuffer} {S : Set (Nat × Nat)} {acc : Blit} {rows : List Byte}
    (x0 y : Nat) (hlen : rows.length ≤ 32) (h : Drawn start S acc)
    (hnew : ∀ p ∈ S, ∀ r < rows.length, p.2 ≠ (y + r) % 32) :
    Drawn start (S ∪ spritePixels rows x0 y) (blitRows rows x0 y acc) := by
  induction rows generalizing S y acc with
  | nil => simpa [spritePixels, blitRows] using h
  | cons b bs ih =>
    rw [List.length_cons] at hlen hnew
    have hrow := drawn_row b x0 y h fun p hp => hnew p hp 0 (by omega)
    rw [spritePixels_cons, ← Set.union_assoc]
    refine ih (y + 1) (by omega) hrow fun p hp r hr => ?_
    obtain hp | ⟨c, -, -, rfl⟩ := hp
    · have := hnew p hp (r + 1) (by omega)
      omega
    · simp only [wrapped]
      omega

/-! ### The instruction -/

theorem spriteCovers_iff (m : Memory) (a n x0 y0 px py : Nat) :
    SpriteCovers m a n x0 y0 px py ↔ (px, py) ∈ spritePixels (m.readBytes a n) x0 y0 := by
  simp only [SpriteCovers, spritePixels, Set.mem_ofPred_eq, Memory.readBytes_length, wrapped,
    Prod.mk.injEq, spriteBit]
  refine exists_congr fun r => exists_congr fun c => and_congr_right fun hr => ?_
  rw [Memory.readBytes_getD _ _ _ _ _ hr]

theorem drawn_drawnSprite (x y : Reg) (n : Nibble) (s : State) :
    Drawn s.fb (spritePixels (s.mem.readBytes s.I.toNat n.toNat) (s.reg x).toNat (s.reg y).toNat)
      (drawnSprite x y n s) := by
  have hn := n.isLt
  have hrows := drawn_rows (rows := s.mem.readBytes s.I.toNat n.toNat) (s.reg x).toNat
    (s.reg y).toNat (by rw [Memory.readBytes_length]; omega) (drawn_nothing s.fb) (by simp)
  rwa [Set.empty_union] at hrows

theorem flagByte_eq_one_iff (c : Bool) : flagByte c = 1 ↔ c = true := by
  cases c <;> simp [flagByte]

/-- Settles O39: the sprite's pixels have been toggled, each once. -/
theorem drawTogglesCoveredPixels : Obligations.DrawTogglesCoveredPixels := by
  unfold Obligations.DrawTogglesCoveredPixels
  intro s x y n hin
  have hdrawn := drawn_drawnSprite x y n s
  have hflag := (reg_draw s (drawnSprite x y n s).fb (flagByte (drawnSprite x y n s).hit) (s.pc + 2)
    VF).trans (if_pos rfl)
  simp only [effectiveAddress_eq, Nat.add_zero, spriteCovers_iff]
  refine ⟨_, exec_drwVxVyN_inside x y hin, hdrawn.toggled, ?_, ?_, fun r hr => ?_, rfl, rfl,
    by simp [SameBut]⟩
  · rw [hflag, flagByte_eq_one_iff, hdrawn.collided, Prod.exists]
    simp only [and_comm]
  · rw [hflag]; exact flagByte_is_bit _
  · exact (reg_draw s _ _ _ r).trans (if_neg (by simpa using hr))

/-- Settles O40: the equation of the draw on the far side of the range check. -/
theorem drawPastMemoryTakesFault : Obligations.DrawPastMemoryTakesFault := by
  unfold Obligations.DrawPastMemoryTakesFault
  exact fun s x y n hn hout => ⟨_, exec_drwVxVyN_outside x y hn hout, takesFault_raise _ _ s⟩

theorem spriteCovers_bounds {m : Memory} {a n x0 y0 px py : Nat}
    (h : SpriteCovers m a n x0 y0 px py) : px < 64 ∧ py < 32 := by
  obtain ⟨r, c, -, -, -, rfl, rfl⟩ := h
  exact ⟨Nat.mod_lt _ (by decide), Nat.mod_lt _ (by decide)⟩

/-- What a sprite covers depends on what memory reads, not on how it is listed. -/
theorem spriteCovers_congr {m m' : Memory} (h : ∀ a, m'.read a = m.read a) (a n x0 y0 px py : Nat) :
    SpriteCovers m' a n x0 y0 px py ↔ SpriteCovers m a n x0 y0 px py := by
  simp only [SpriteCovers, h]

theorem eq_of_ne_iff_ne {a b c : Bool} (h : a ≠ b ↔ b ≠ c) : a = c := by
  revert a b c; decide

/-- Settles O41 from O39: the second draw, from the same registers, index and memory, toggles the
pixels the first one toggled; a pixel it finds set there was clear at the start. -/
theorem drawTwiceRestoresDisplay : Obligations.DrawTwiceRestoresDisplay := by
  unfold Obligations.DrawTwiceRestoresDisplay
  intro s x y n hin
  obtain ⟨t, ht, htoggled, -, -, -, -, -, hframe⟩ := drawTogglesCoveredPixels s x y n hin
  obtain ⟨hmem, -, hI, -⟩ := hframe
  replace hmem := hmem (by decide)
  replace hI := hI (by decide)
  obtain ⟨u, hu, hagain, hhit, -⟩ :=
    drawTogglesCoveredPixels { t with v := s.v } x y n (hin.imp_right fun h => hI ▸ h)
  simp only [effectiveAddress_eq, hI, spriteCovers_congr hmem] at htoggled hagain hhit
  refine ⟨t, u, ht, hu, frameBuffer_ext fun px py hx hy => ?_, hhit.trans ?_⟩
  · have hfirst := htoggled px py hx hy
    have hsecond := hagain px py hx hy
    exact eq_of_ne_iff_ne (hsecond.trans hfirst.symm)
  · refine exists_congr fun px => exists_congr fun py => ⟨?_, ?_⟩
    · rintro ⟨hset, hcovers⟩
      obtain ⟨hx, hy⟩ := spriteCovers_bounds hcovers
      have hchanged := (htoggled px py hx hy).mpr hcovers
      exact ⟨hx, hy, Bool.eq_false_of_not_eq_true fun hs => hchanged (hset.trans hs.symm), hset⟩
    · rintro ⟨hx, hy, hclear, hset⟩
      exact ⟨hset, (htoggled px py hx hy).mp (by simp [hset, hclear])⟩

end Sys2Proof.Proofs
end

section
/-! One step, transition by transition: the cycle (spec/40_cycle.md section 1), the sound timer and
its tick (60_exceptions.md section 5; 45_keypad_timers.md R225), keypad and renderer
(60_exceptions.md section 6), load and reset (70_reset_and_hazards.md section 1). Each has one
equation of `step`. -/

namespace Sys2Proof.Proofs

open Sys2Proof Sys2Proof.Machine

/-! ### The cycle -/

theorem step_of_nil {s : State} (h : s.schedule = []) :
    step s = runCycle (s.beginCycle [] none) := by rw [step, h]

theorem step_of_cycle {s : State} {rnd : Byte} {rest : List Transition}
    (h : s.schedule = .cycle rnd :: rest) : step s = runCycle (s.beginCycle rest (some rnd)) := by
  rw [step, h]

/-- Settles O5: the cycle on the begun state, whose word, `pc` and halt latch are those of `s`. -/
theorem stepRunsTheDecodedInstruction : Obligations.StepRunsTheDecodedInstruction := by
  unfold Obligations.StepRunsTheDecodedInstruction
  intro s i hrun hpc hd
  have hcycle : ∀ rest o, runCycle (s.beginCycle rest o) = exec i (s.beginCycle rest o) :=
    fun rest o => runCycle_of_decodable (s := s.beginCycle rest o) hrun hpc hd
  exact ⟨fun hs => (step_of_nil hs).trans (hcycle [] none),
    fun rnd rest hs => (step_of_cycle hs).trans (hcycle rest (some rnd))⟩

theorem runCycle_of_halted {s : State} (h : s.halted = true) : runCycle s = .next s := if_pos h

theorem runCycle_of_unfetchable {s : State} (hrun : s.halted = false) (hpc : 0xFFF ≤ s.pc.toNat) :
    runCycle s = .next (s.raise .pcOutOfBounds s.pc.toNat) := by
  have hfetch : fetchable s.pc = false :=
    Bool.eq_false_of_not_eq_true fun hf => by have := (fetchable_iff s.pc).mp hf; omega
  simp [runCycle, hrun, hfetch]

/-- Settles O6: the halt check leaves the begun state as it is. -/
theorem haltedCycleChangesNothing : Obligations.HaltedCycleChangesNothing := by
  unfold Obligations.HaltedCycleChangesNothing
  intro s hhalted hnext
  obtain ⟨rest, o, hstep⟩ := step_of_cycleIsNext hnext
  have hcycle := runCycle_of_halted (s := s.beginCycle rest o) hhalted
  exact ⟨_, hstep.trans hcycle, rfl, sameBut_beginCycle s rest o⟩

/-- Settles O7: the fetch check raises on the begun state, whose events are empty. -/
theorem fetchOutsideMemoryTakesFault : Obligations.FetchOutsideMemoryTakesFault := by
  unfold Obligations.FetchOutsideMemoryTakesFault
  intro s hrun hnext hpc
  obtain ⟨rest, o, hstep⟩ := step_of_cycleIsNext hnext
  have hcycle := runCycle_of_unfetchable (s := s.beginCycle rest o) hrun hpc
  exact ⟨_, hstep.trans hcycle, rfl, rfl, rfl, by simp [SameBut]⟩

/-! ### The timers -/

theorem exec_ldStVx (x : Reg) (s : State) :
    exec (.ldStVx x) s = .next ((s.setST (s.reg x)).goto s.npc) := rfl

/-- Settles O45: the write of `ST` emits `soundEdge`. -/
theorem soundTimerIsSetWithItsEdge : Obligations.SoundTimerIsSetWithItsEdge := by
  unfold Obligations.SoundTimerIsSetWithItsEdge
  exact fun s x => ⟨_, exec_ldStVx x s, rfl, rfl, rfl, by simp [SameBut]⟩

theorem step_of_tick {s : State} {rest : List Transition} (h : s.schedule = .tick :: rest) :
    step s = .next (tickTimers (s.beginTransition rest none)) := by rw [step, h]

theorem toNat_countedDown (b : Byte) : (if b = 0 then 0 else b - 1).toNat = b.toNat - 1 := by
  split
  case isTrue h => rw [h]; rfl
  case isFalse h => bv_omega

/-- Settles O46: the tick as one update, each timer a natural number. -/
theorem tickCountsTimersDown : Obligations.TickCountsTimersDown := by
  unfold Obligations.TickCountsTimersDown
  intro s rest hs
  refine ⟨_, (step_of_tick hs).trans (congrArg _ (tickTimers_eq _)), toNat_countedDown s.DT,
    toNat_countedDown s.ST, List.nil_append _, rfl, by simp [SameBut, State.reg]⟩

/-! ### Keypad and renderer -/

theorem step_of_keyWrite {s : State} {k : BitVec 16} {rest : List Transition}
    (h : s.schedule = .keyWrite k :: rest) :
    step s = .next (writeKeys k (s.beginTransition rest none)) := by rw [step, h]

theorem step_of_frameAck {s : State} {rest : List Transition} (h : s.schedule = .frameAck :: rest) :
    step s = .next (ackFrame (s.beginTransition rest none)) := by rw [step, h]

/-- Settles O47: each writes its own field on the begun state. -/
theorem keypadAndRendererActAlone : Obligations.KeypadAndRendererActAlone := by
  unfold Obligations.KeypadAndRendererActAlone
  exact ⟨fun s k rest hs => ⟨_, step_of_keyWrite hs, fun _ _ => rfl, rfl, rfl,
      by simp [SameBut, writeKeys, State.reg]⟩,
    fun s rest hs => ⟨_, step_of_frameAck hs, rfl, rfl, rfl, rfl,
      by simp [SameBut, ackFrame, State.reg]⟩⟩

/-! ### Load and reset -/

theorem step_of_load {s : State} {bytes : List Byte} {offset : Nat} {rest : List Transition}
    (h : s.schedule = .load bytes offset :: rest) :
    step s = loadBytes bytes offset (s.beginTransition rest none) := by rw [step, h]

/-- Settles O48: before the first cycle a load answers; by what it can do, the two clauses are those
of the size check. -/
theorem loadWritesImageOrRefuses : Obligations.LoadWritesImageOrRefuses := by
  unfold Obligations.LoadWritesImageOrRefuses
  intro s bytes offset rest hstarted hs
  obtain ⟨t, hload⟩ := loadBytes_answers (s := s.beginTransition rest none) bytes offset hstarted
  refine ⟨t, (step_of_load hs).trans hload, ?_⟩
  obtain ⟨-, ⟨hfits, rfl⟩ | ⟨hlong, rfl⟩⟩ := loadBytes_cases hload
  · refine ⟨rfl, rfl,
      fun _ => ⟨rfl, fun k b hb => ?_, fun a ha => ?_, by simp [SameBut, State.reg]⟩,
      fun hlong => absurd hfits (Nat.not_le.mpr hlong)⟩
    · obtain ⟨hk, rfl⟩ := List.getElem?_eq_some_iff.mp hb
      exact (read_writeBytes_inside _ _ hk).trans (List.getD_eq_getElem _ _ hk)
    · exact Memory.read_writeBytes_outside _ _ _ _ (by omega)
  · exact ⟨rfl, rfl, fun hfits => absurd hfits hlong, fun _ => ⟨rfl, by simp [SameBut, State.reg]⟩⟩

theorem step_of_reset {s : State} {rest : List Transition} (h : s.schedule = .reset :: rest) :
    step s = .next (s.beginTransition rest none).applyReset := by rw [step, h]

/-- Settles O49: the reset state but for the schedule and the counter. -/
theorem resetGivesResetState : Obligations.ResetGivesResetState := by
  unfold Obligations.ResetGivesResetState
  exact fun s rest hs => ⟨_, step_of_reset hs, rfl, rfl, rfl,
    by simp [SameBut, State.applyReset, State.reg]⟩

/-- Reset memory lists nothing. -/
theorem read_reset_mem (a : Nat) : State.reset.mem.read a = resetByte a := rfl

theorem resetByte_font {i : Nat} (hi : i < 80) : resetByte (fontBase + i) = font.getD i 0 := by
  rw [resetByte, if_pos ⟨Nat.le_add_right _ _, Nat.add_lt_add_left hi _⟩, Nat.add_sub_cancel_left]

theorem resetByte_outside {a : Nat} (ha : a < fontBase ∨ fontBase + 80 ≤ a) : resetByte a = 0 :=
  if_neg fun ⟨hlow, hhigh⟩ => ha.elim (Nat.not_lt.mpr hlow) (Nat.not_le.mpr hhigh)

/-- Settles O50: memory by its reset content, the display as the clear buffer, the rest field by
field. -/
theorem resetStateHoldsResetValues : Obligations.ResetStateHoldsResetValues := by
  unfold Obligations.ResetStateHoldsResetValues
  refine ⟨fun i hi => (read_reset_mem _).trans (resetByte_font hi),
    fun a ha => (read_reset_mem a).trans (resetByte_outside ha), ?_, rfl, rfl, rfl, ?_, rfl, rfl,
    fun px py => FrameBuffer.pixel_clear px py, rfl, ?_, rfl, rfl⟩
  · exact fun r => by simp [State.reg, State.reset]
  · exact fun j hj => by simp [State.reset]
  · exact fun j => by simp [State.reset]

/-! ### Rules of every transition -/

/-- The display stays marked through an instruction. -/
theorem dirty_of_completes {i : Instr} {s t : State} (hc : Completes i s t) (h : s.dirty = true) :
    t.dirty = true := by
  cases hc
  case writesFrame => rfl
  all_goals exact h

theorem dirty_of_runCycle {s t : State} (hrun : runCycle s = .next t) (h : s.dirty = true) :
    t.dirty = true := by
  obtain ⟨-, rfl⟩ | ⟨-, -, rfl⟩ | ⟨-, -, i, -, he⟩ | ⟨-, -, -, rfl⟩ := runCycle_cases hrun
  · exact h
  · exact h
  · obtain ⟨f, info, -, rfl⟩ | ⟨-, hc⟩ := exec_next_cases he
    · exact h
    · exact dirty_of_completes hc h
  · exact h

theorem schedule_ne_reset {s : State} {rest : List Transition} (h : s.resetIsNext = false) :
    s.schedule ≠ .reset :: rest := by
  intro hs
  rw [State.resetIsNext, hs] at h
  cases h

/-- Settles O53: none of the four other agents' transitions writes these fields; memory is written
by an accepted load alone. -/
theorem otherAgentsLeaveInterpreterAlone : Obligations.OtherAgentsLeaveInterpreterAlone := by
  unfold Obligations.OtherAgentsLeaveInterpreterAlone
  intro s t hstep hcycle hreset
  obtain ⟨hnext, -⟩ | ⟨rest, -, rfl⟩ | ⟨k, rest, -, rfl⟩ | ⟨rest, -, rfl⟩ |
    ⟨bytes, offset, rest, hs, hload⟩ | ⟨rest, hs, -⟩ := step_cases hstep
  · rw [hcycle] at hnext; cases hnext
  · rw [tickTimers_eq]
    exact ⟨fun _ => rfl, rfl, rfl, rfl, rfl, rfl, rfl, rfl, rfl, fun _ => rfl⟩
  · exact ⟨fun _ => rfl, rfl, rfl, rfl, rfl, rfl, rfl, rfl, rfl, fun _ => rfl⟩
  · exact ⟨fun _ => rfl, rfl, rfl, rfl, rfl, rfl, rfl, rfl, rfl, fun _ => rfl⟩
  · have hisload := congrArg List.head? hs
    obtain ⟨-, ⟨-, rfl⟩ | ⟨-, rfl⟩⟩ := loadBytes_cases hload <;>
      exact ⟨fun _ => rfl, rfl, rfl, rfl, rfl, rfl, rfl, rfl, rfl,
        fun hnone => absurd hisload (hnone bytes offset)⟩
  · exact absurd hs (schedule_ne_reset hreset)

/-- Only `FrameAck` and `Reset` clear the mark. -/
theorem dirty_of_step {s t : State} (hstep : step s = .next t) (hreset : s.resetIsNext = false)
    (hack : s.schedule.head? ≠ some .frameAck) (h : s.dirty = true) : t.dirty = true := by
  obtain ⟨-, rest, o, hrun⟩ | ⟨rest, -, rfl⟩ | ⟨k, rest, -, rfl⟩ | ⟨rest, hs, -⟩ |
    ⟨bytes, offset, rest, -, hload⟩ | ⟨rest, hs, -⟩ := step_cases hstep
  · exact dirty_of_runCycle hrun h
  · rw [tickTimers_eq]; exact h
  · exact h
  · exact absurd (congrArg List.head? hs) hack
  · obtain ⟨-, ⟨-, rfl⟩ | ⟨-, rfl⟩⟩ := loadBytes_cases hload <;> exact h
  · exact absurd hs (schedule_ne_reset hreset)

/-- Settles O52: a cycle of a halted machine is its halt check, and the four other agents leave
these fields alone by O53. -/
theorem haltLatchHoldsUntilReset : Obligations.HaltLatchHoldsUntilReset := by
  unfold Obligations.HaltLatchHoldsUntilReset
  intro s t hstep hreset
  refine ⟨fun hhalted => ?_, fun hdirty hack => dirty_of_step hstep hreset hack hdirty⟩
  cases hcycle : s.cycleIsNext with
  | true =>
    obtain ⟨rest, o, hbegin⟩ := step_of_cycleIsNext hcycle
    rw [hbegin, runCycle_of_halted (s := s.beginCycle rest o) hhalted] at hstep
    cases hstep
    exact ⟨hhalted, rfl, fun _ => rfl, rfl, rfl, rfl, rfl, rfl⟩
  | false =>
    obtain ⟨hreg, hI, hpc, hsp, hstack, hfb, hlatch, hcause, -⟩ :=
      otherAgentsLeaveInterpreterAlone s t hstep hcycle hreset
    exact ⟨hlatch.trans hhalted, hcause, hreg, hI, hpc, hsp, hstack, hfb⟩

/-! ### Events -/

theorem soundEdge_self (b : Byte) : soundEdge b b = [] := by
  by_cases h : b = 0 <;> simp [soundEdge, h]

theorem soundStart_mem_soundEdge (old new : Byte) :
    .soundStart ∈ soundEdge old new ↔ old = 0 ∧ new ≠ 0 := by
  unfold soundEdge
  split_ifs with hstart hstop
  · exact iff_of_true (by simp) hstart
  · exact iff_of_false (by simp) hstart
  · exact iff_of_false (by simp) hstart

theorem soundStop_mem_soundEdge (old new : Byte) :
    .soundStop ∈ soundEdge old new ↔ old ≠ 0 ∧ new = 0 := by
  unfold soundEdge
  split_ifs with hstart hstop
  · exact iff_of_false (by simp) fun h => h.1 hstart.1
  · exact iff_of_true (by simp) hstop
  · exact iff_of_false (by simp) hstop

theorem length_soundEdge_le (old new : Byte) : (soundEdge old new).length ≤ 1 := by
  unfold soundEdge
  split_ifs <;> simp

/-- The events `es` of a transition that took the sound timer from `old` to `new`: the edge of the
sound level, or one event that is not of sound, with the timer as it was. -/
def TransitionEvents (old new : Byte) (es : List Event) : Prop :=
  es = soundEdge old new ∨
  (new = old ∧ ∃ e, e ≠ .soundStart ∧ e ≠ .soundStop ∧ es = [e])

theorem transitionEvents_none (b : Byte) : TransitionEvents b b [] := .inl (soundEdge_self b).symm

theorem transitionEvents_raise {s : State} (h : s.events = []) (f : FatalFault) (info : Nat) :
    TransitionEvents s.ST (s.raise f info).ST (s.raise f info).events :=
  .inr ⟨rfl, .fault f.code info, by simp, by simp, by simp [h]⟩

theorem events_of_completes {i : Instr} {s t : State} (hc : Completes i s t) :
    t.events = s.events ++ soundEdge s.ST t.ST := by
  cases hc
  case writesSound => rfl
  all_goals simp [soundEdge_self]

theorem transitionEvents_runCycle {s t : State} (h : s.events = []) (hrun : runCycle s = .next t) :
    TransitionEvents s.ST t.ST t.events := by
  obtain ⟨-, rfl⟩ | ⟨-, -, rfl⟩ | ⟨-, -, i, -, he⟩ | ⟨-, -, -, rfl⟩ := runCycle_cases hrun
  · rw [h]; exact transitionEvents_none _
  · exact transitionEvents_raise h _ _
  · obtain ⟨f, info, -, rfl⟩ | ⟨-, hc⟩ := exec_next_cases he
    · exact transitionEvents_raise h f info
    · exact .inl (by rw [events_of_completes hc, h, List.nil_append])
  · exact .inr ⟨rfl, .decodeWarning s.fetchWord s.pc.toNat, by simp, by simp,
      by simp [State.warnUnrecognized, h]⟩

/-- The stop of a tick is the edge of its countdown (R255, R256). -/
theorem soundEdge_countedDown (b : Byte) :
    soundEdge b (if b = 0 then 0 else b - 1) = if b = 1 then [.soundStop] else [] := by
  by_cases hzero : b = 0
  · subst hzero; rfl
  · have hone : b - 1 = 0 ↔ b = 1 := sub_eq_zero
    simp only [soundEdge, hzero, hone, false_and, if_false, ne_eq, not_false_eq_true,
      true_and]

theorem transitionEvents_step {s t : State} (hstep : step s = .next t) :
    TransitionEvents s.ST t.ST t.events ∨ (s.resetIsNext = true ∧ t.events = []) := by
  obtain ⟨-, rest, o, hrun⟩ | ⟨rest, -, rfl⟩ | ⟨k, rest, -, rfl⟩ | ⟨rest, -, rfl⟩ |
    ⟨bytes, offset, rest, -, hload⟩ | ⟨rest, hs, rfl⟩ := step_cases hstep
  · exact .inl (transitionEvents_runCycle (s := s.beginCycle rest o) rfl hrun)
  · rw [tickTimers_eq]
    exact .inl (.inl ((List.nil_append _).trans (soundEdge_countedDown s.ST).symm))
  · exact .inl (transitionEvents_none s.ST)
  · exact .inl (transitionEvents_none s.ST)
  · obtain ⟨-, ⟨-, rfl⟩ | ⟨-, rfl⟩⟩ := loadBytes_cases hload <;>
      exact .inl (transitionEvents_none s.ST)
  · exact .inr ⟨by simp [State.resetIsNext, hs], rfl⟩

/-- Settles O55: an event of sound is one of the edge. -/
theorem soundEventsAreLevelEdges : Obligations.SoundEventsAreLevelEdges := by
  unfold Obligations.SoundEventsAreLevelEdges
  intro s t hstep hreset
  obtain (hedge | ⟨hsame, e, hstart, hstop, hother⟩) | ⟨hnext, -⟩ := transitionEvents_step hstep
  · simp [hedge, soundStart_mem_soundEdge, soundStop_mem_soundEdge, State.soundOn]
  · simp [hother, hsame, hstart.symm, hstop.symm, State.soundOn]
  · rw [hreset] at hnext; cases hnext

/-- Settles O56: an edge is at most one event; a reset emits none. -/
theorem transitionEmitsAtMostOneEvent : Obligations.TransitionEmitsAtMostOneEvent := by
  unfold Obligations.TransitionEmitsAtMostOneEvent
  intro s t hstep
  obtain (hedge | ⟨-, e, -, -, hother⟩) | ⟨-, hnone⟩ := transitionEvents_step hstep
  · rw [hedge]; exact length_soundEdge_le _ _
  · rw [hother]; exact le_rfl
  · rw [hnone]; exact Nat.zero_le 1

end Sys2Proof.Proofs
end
